-- ==== Sys2Proof/Word.lean ====
section
/-! DEFINITION. The words of the SWPE (R8, R9): bit 0 is the least significant bit of every value. -/

namespace Sys2Proof

/-- A host register or the DATA field of an access word: 16 bits (R68, R80). -/
abbrev Word := BitVec 16

/-- One byte of the frame buffer, unsigned 0..255 (R9, R25). -/
abbrev Byte := BitVec 8

/-- A word address of the host register space: 4 bits (R66). -/
abbrev Addr := BitVec 4

/-- A host access word: 21 bits, RW at 20, ADDR at 19:16, DATA at 15:0 (R80). -/
abbrev AccessWord := BitVec 21

/-- A level of the single-wire line: `false` is 0 (low), `true` is 1 (high) (R10). -/
abbrev Level := Bool

end Sys2Proof
end

