-- ==== Sys2Proof/Syntax.lean ====
section
/-! DEFINITION. The operations of the SWPE: one constructor per row of spec/opcode_table.json (R1, R81, R84). -/

namespace Sys2Proof

/-- The 21 host accesses (R101 to R121) and the 11 sequencer micro-operations (R143 to R153).
Every bit that a row of the table leaves free is an operand, the ignored DATA of a read or of an ignored write too, so
that an access word and its operation carry the same information. -/
inductive Instr where
  /-- RD_CTRL, R101. -/
  | rdCtrl (data : Word)
  /-- RD_STATUS, R102. -/
  | rdStatus (data : Word)
  /-- RD_TEMP, R103. -/
  | rdTemp (data : Word)
  /-- RD_HUM, R104. -/
  | rdHum (data : Word)
  /-- RD_POLL_US, R105. -/
  | rdPollUs (data : Word)
  /-- RD_BUDGET, R106. -/
  | rdBudget (data : Word)
  /-- RD_BITIDX, R107. -/
  | rdBitidx (data : Word)
  /-- RD_UNMAPPED_7, R108. -/
  | rdUnmapped7 (data : Word)
  /-- RD_UNMAPPED_8F, R109; `lo` is ADDR[2:0], ADDR[3] being 1. -/
  | rdUnmapped8F (lo : BitVec 3) (data : Word)
  /-- NOP, R110. -/
  | nop
  /-- START, R111. -/
  | start
  /-- CLEAR, R112. -/
  | clear
  /-- CTRL_RSVD, R113: a write to CTRL of none of the three command values. -/
  | ctrlRsvd (data : Word)
  /-- WR_STATUS, R114. -/
  | wrStatus (data : Word)
  /-- WR_TEMP, R115. -/
  | wrTemp (data : Word)
  /-- WR_HUM, R116. -/
  | wrHum (data : Word)
  /-- WR_POLL_US, R117. -/
  | wrPollUs (data : Word)
  /-- WR_BUDGET, R118. -/
  | wrBudget (data : Word)
  /-- WR_BITIDX, R119. -/
  | wrBitidx (data : Word)
  /-- WR_UNMAPPED_7, R120. -/
  | wrUnmapped7 (data : Word)
  /-- WR_UNMAPPED_8F, R121; `lo` is ADDR[2:0], ADDR[3] being 1. -/
  | wrUnmapped8F (lo : BitVec 3) (data : Word)
  /-- IDLE, R143. -/
  | idle
  /-- RST_LOW, R144. -/
  | rstLow
  /-- REL_WAIT, R145. -/
  | relWait
  /-- PRES_LOW, R146. -/
  | presLow
  /-- PRES_HIGH, R147. -/
  | presHigh
  /-- PRES_OK, R148. -/
  | presOk
  /-- BIT_WAIT_HIGH, R149. -/
  | bitWaitHigh
  /-- BIT_SETTLE, R150. -/
  | bitSettle
  /-- BIT_WAIT_LOW, R151. -/
  | bitWaitLow
  /-- FRAME_COMPLETE, R152. -/
  | frameComplete
  /-- TIMED_OUT, R153. -/
  | timedOut
  deriving DecidableEq, Repr

end Sys2Proof
end

