-- ==== Sys2Proof/WellFormed.lean ====
section
/-! DEFINITION. Which terms of `Instr` some encoding stands for. -/

namespace Sys2Proof

/-- CTRL_RSVD carries a reserved command: DATA is none of 0x0000, 0x0001, 0x0002 (R82, R113).
Every other operation takes any value of its operands. -/
def Instr.wellFormed : Instr → Bool
  | .ctrlRsvd data => data != 0x0000#16 && data != 0x0001#16 && data != 0x0002#16
  | .rdCtrl _ | .rdStatus _ | .rdTemp _ | .rdHum _ | .rdPollUs _ | .rdBudget _ | .rdBitidx _
  | .rdUnmapped7 _ | .rdUnmapped8F _ _
  | .nop | .start | .clear
  | .wrStatus _ | .wrTemp _ | .wrHum _ | .wrPollUs _ | .wrBudget _ | .wrBitidx _
  | .wrUnmapped7 _ | .wrUnmapped8F _ _
  | .idle | .rstLow | .relWait | .presLow | .presHigh | .presOk
  | .bitWaitHigh | .bitSettle | .bitWaitLow | .frameComplete | .timedOut => true

end Sys2Proof
end

