-- ==== Sys2Proof/Decode.lean ====
section
/-! DEFINITION. The two encodings of 30_encoding.md: the 21-bit host access word and the 4-bit phase code; the decoder
(R81, R84), then the encoder, then the opcode table's match and mask. -/

namespace Sys2Proof

/-- One encoded operation: the host port carries access words, the sequencer holds phase codes. -/
inductive Code where
  /-- A host access word (R80). -/
  | access (w : AccessWord)
  /-- A sequencer phase code (R84). -/
  | phase (c : BitVec 4)
  deriving DecidableEq, Repr

/-- Why the decoder refuses an encoding. -/
inductive Reject where
  /-- Phase codes 11 to 15 select nothing (R84). -/
  | reservedPhaseCode (c : BitVec 4)
  deriving DecidableEq, Repr

/-! ## Fields of the access word (R80) -/

/-- RW: bit 20; 0 = read, 1 = write. -/
def accessRw (w : AccessWord) : Bool := w.getLsbD 20

/-- ADDR: bits 19:16. -/
def accessAddr (w : AccessWord) : Addr := w.extractLsb' 16 4

/-- DATA: bits 15:0. -/
def accessData (w : AccessWord) : Word := w.extractLsb' 0 16

/-- The access word with the given fields: `{RW, ADDR, DATA}`. -/
def accessWord (rw : Bool) (addr : Addr) (data : Word) : AccessWord := BitVec.ofBool rw ++ addr ++ data

/-! ## Decoder -/

/-- R81 for RW = 0. The last arm takes addresses 0x8 to 0xF, those with ADDR[3] = 1. -/
def decodeRead (addr : Addr) (data : Word) : Instr :=
  match addr.toNat with
  | 0x0 => .rdCtrl data
  | 0x1 => .rdStatus data
  | 0x2 => .rdTemp data
  | 0x3 => .rdHum data
  | 0x4 => .rdPollUs data
  | 0x5 => .rdBudget data
  | 0x6 => .rdBitidx data
  | 0x7 => .rdUnmapped7 data
  | _ => .rdUnmapped8F (addr.extractLsb' 0 3) data

/-- R82: the command a write to CTRL carries. Commands are values, not bits. -/
def decodeCommand (data : Word) : Instr :=
  if data = 0x0000#16 then .nop
  else if data = 0x0001#16 then .start
  else if data = 0x0002#16 then .clear
  else .ctrlRsvd data

/-- R81 for RW = 1. The last arm takes addresses 0x8 to 0xF, those with ADDR[3] = 1. -/
def decodeWrite (addr : Addr) (data : Word) : Instr :=
  match addr.toNat with
  | 0x0 => decodeCommand data
  | 0x1 => .wrStatus data
  | 0x2 => .wrTemp data
  | 0x3 => .wrHum data
  | 0x4 => .wrPollUs data
  | 0x5 => .wrBudget data
  | 0x6 => .wrBitidx data
  | 0x7 => .wrUnmapped7 data
  | _ => .wrUnmapped8F (addr.extractLsb' 0 3) data

/-- R81: every one of the 2^21 access words selects exactly one operation. -/
def decodeAccess (w : AccessWord) : Instr :=
  if accessRw w then decodeWrite (accessAddr w) (accessData w)
  else decodeRead (accessAddr w) (accessData w)

/-- R84 with the codes of R21: a phase code selects its micro-operation; codes 11 to 15 select nothing. -/
def decodePhase (c : BitVec 4) : Except Reject Instr :=
  match c.toNat with
  | 0 => .ok .idle
  | 1 => .ok .rstLow
  | 2 => .ok .relWait
  | 3 => .ok .presLow
  | 4 => .ok .presHigh
  | 5 => .ok .presOk
  | 6 => .ok .bitWaitHigh
  | 7 => .ok .bitSettle
  | 8 => .ok .bitWaitLow
  | 9 => .ok .frameComplete
  | 10 => .ok .timedOut
  | _ => .error (.reservedPhaseCode c)

/-- The decoder: total, refusing by name. -/
def decode : Code → Except Reject Instr
  | .access w => .ok (decodeAccess w)
  | .phase c => decodePhase c

/-! ## The host's table words -/

/-- The code in a table word: rows of format engine_phase have 4 bits (one byte), rows of format host_access 21 bits
(three bytes). None where a bit above the format's width is set. -/
def tableCode (nbits w : Nat) : Option Code :=
  if nbits ≤ 8 then
    if w < 2 ^ 4 then some (.phase (BitVec.ofNat 4 w)) else none
  else
    if w < 2 ^ 21 then some (.access (BitVec.ofNat 21 w)) else none

/-- The operation the decoder reads from a table word. -/
def decodeTableWord (nbits w : Nat) : Option Instr :=
  match tableCode nbits w with
  | some c =>
    match decode c with
    | .ok i => some i
    | .error _ => none
  | none => none

/-! ## Encoder (R80 to R84, R86) -/

/-- The code of a well-formed operation. -/
def encode : Instr → Code
  | .rdCtrl data => .access (accessWord false 0x0#4 data)
  | .rdStatus data => .access (accessWord false 0x1#4 data)
  | .rdTemp data => .access (accessWord false 0x2#4 data)
  | .rdHum data => .access (accessWord false 0x3#4 data)
  | .rdPollUs data => .access (accessWord false 0x4#4 data)
  | .rdBudget data => .access (accessWord false 0x5#4 data)
  | .rdBitidx data => .access (accessWord false 0x6#4 data)
  | .rdUnmapped7 data => .access (accessWord false 0x7#4 data)
  | .rdUnmapped8F lo data => .access (accessWord false (1#1 ++ lo) data)
  | .nop => .access (accessWord true 0x0#4 0x0000#16)
  | .start => .access (accessWord true 0x0#4 0x0001#16)
  | .clear => .access (accessWord true 0x0#4 0x0002#16)
  | .ctrlRsvd data => .access (accessWord true 0x0#4 data)
  | .wrStatus data => .access (accessWord true 0x1#4 data)
  | .wrTemp data => .access (accessWord true 0x2#4 data)
  | .wrHum data => .access (accessWord true 0x3#4 data)
  | .wrPollUs data => .access (accessWord true 0x4#4 data)
  | .wrBudget data => .access (accessWord true 0x5#4 data)
  | .wrBitidx data => .access (accessWord true 0x6#4 data)
  | .wrUnmapped7 data => .access (accessWord true 0x7#4 data)
  | .wrUnmapped8F lo data => .access (accessWord true (1#1 ++ lo) data)
  | .idle => .phase 0#4
  | .rstLow => .phase 1#4
  | .relWait => .phase 2#4
  | .presLow => .phase 3#4
  | .presHigh => .phase 4#4
  | .presOk => .phase 5#4
  | .bitWaitHigh => .phase 6#4
  | .bitSettle => .phase 7#4
  | .bitWaitLow => .phase 8#4
  | .frameComplete => .phase 9#4
  | .timedOut => .phase 10#4

/-! ## The opcode table, transcribed -/

/-- One host_access row of opcode_table.json: a word belongs to it when `word &&& mask = pattern`. -/
structure AccessRow where
  mnemonic : String
  pattern : AccessWord
  mask : AccessWord
  deriving DecidableEq, Repr

/-- Does a row's match and mask take this word? -/
def AccessRow.takes (r : AccessRow) (w : AccessWord) : Bool := w &&& r.mask == r.pattern

/-- Can some word belong to both rows? -/
def AccessRow.overlaps (r q : AccessRow) : Bool :=
  (r.pattern ^^^ q.pattern) &&& (r.mask &&& q.mask) == 0#21

/-- The read rows of the table. -/
def readRows : List AccessRow := [
  { mnemonic := "RD_CTRL", pattern := 0x000000#21, mask := 0x1F0000#21 },
  { mnemonic := "RD_STATUS", pattern := 0x010000#21, mask := 0x1F0000#21 },
  { mnemonic := "RD_TEMP", pattern := 0x020000#21, mask := 0x1F0000#21 },
  { mnemonic := "RD_HUM", pattern := 0x030000#21, mask := 0x1F0000#21 },
  { mnemonic := "RD_POLL_US", pattern := 0x040000#21, mask := 0x1F0000#21 },
  { mnemonic := "RD_BUDGET", pattern := 0x050000#21, mask := 0x1F0000#21 },
  { mnemonic := "RD_BITIDX", pattern := 0x060000#21, mask := 0x1F0000#21 },
  { mnemonic := "RD_UNMAPPED_7", pattern := 0x070000#21, mask := 0x1F0000#21 },
  { mnemonic := "RD_UNMAPPED_8F", pattern := 0x080000#21, mask := 0x180000#21 } ]

/-- The write rows of the table but for CTRL_RSVD. -/
def writeRows : List AccessRow := [
  { mnemonic := "NOP", pattern := 0x100000#21, mask := 0x1FFFFF#21 },
  { mnemonic := "START", pattern := 0x100001#21, mask := 0x1FFFFF#21 },
  { mnemonic := "CLEAR", pattern := 0x100002#21, mask := 0x1FFFFF#21 },
  { mnemonic := "WR_STATUS", pattern := 0x110000#21, mask := 0x1F0000#21 },
  { mnemonic := "WR_TEMP", pattern := 0x120000#21, mask := 0x1F0000#21 },
  { mnemonic := "WR_HUM", pattern := 0x130000#21, mask := 0x1F0000#21 },
  { mnemonic := "WR_POLL_US", pattern := 0x140000#21, mask := 0x1F0000#21 },
  { mnemonic := "WR_BUDGET", pattern := 0x150000#21, mask := 0x1F0000#21 },
  { mnemonic := "WR_BITIDX", pattern := 0x160000#21, mask := 0x1F0000#21 },
  { mnemonic := "WR_UNMAPPED_7", pattern := 0x170000#21, mask := 0x1F0000#21 },
  { mnemonic := "WR_UNMAPPED_8F", pattern := 0x180000#21, mask := 0x180000#21 } ]

/-- CTRL_RSVD, whose match and mask also cover NOP, START and CLEAR: "priority": "lowest" (R81). -/
def ctrlRsvdRow : AccessRow := { mnemonic := "CTRL_RSVD", pattern := 0x100000#21, mask := 0x1F0000#21 }

/-- All host_access rows in the order a decoder tries them (R81): the row of lowest priority last. -/
def accessRows : List AccessRow := readRows ++ writeRows ++ [ctrlRsvdRow]

/-- The engine_phase rows of the table: mnemonic and 4-bit code. -/
def phaseRows : List (String × BitVec 4) := [
  ("IDLE", 0x0#4), ("RST_LOW", 0x1#4), ("REL_WAIT", 0x2#4), ("PRES_LOW", 0x3#4), ("PRES_HIGH", 0x4#4),
  ("PRES_OK", 0x5#4), ("BIT_WAIT_HIGH", 0x6#4), ("BIT_SETTLE", 0x7#4), ("BIT_WAIT_LOW", 0x8#4),
  ("FRAME_COMPLETE", 0x9#4), ("TIMED_OUT", 0xA#4) ]

/-- The mnemonic of an operation, as opcode_table.json spells it. -/
def Instr.mnemonic : Instr → String
  | .rdCtrl _ => "RD_CTRL"
  | .rdStatus _ => "RD_STATUS"
  | .rdTemp _ => "RD_TEMP"
  | .rdHum _ => "RD_HUM"
  | .rdPollUs _ => "RD_POLL_US"
  | .rdBudget _ => "RD_BUDGET"
  | .rdBitidx _ => "RD_BITIDX"
  | .rdUnmapped7 _ => "RD_UNMAPPED_7"
  | .rdUnmapped8F _ _ => "RD_UNMAPPED_8F"
  | .nop => "NOP"
  | .start => "START"
  | .clear => "CLEAR"
  | .ctrlRsvd _ => "CTRL_RSVD"
  | .wrStatus _ => "WR_STATUS"
  | .wrTemp _ => "WR_TEMP"
  | .wrHum _ => "WR_HUM"
  | .wrPollUs _ => "WR_POLL_US"
  | .wrBudget _ => "WR_BUDGET"
  | .wrBitidx _ => "WR_BITIDX"
  | .wrUnmapped7 _ => "WR_UNMAPPED_7"
  | .wrUnmapped8F _ _ => "WR_UNMAPPED_8F"
  | .idle => "IDLE"
  | .rstLow => "RST_LOW"
  | .relWait => "REL_WAIT"
  | .presLow => "PRES_LOW"
  | .presHigh => "PRES_HIGH"
  | .presOk => "PRES_OK"
  | .bitWaitHigh => "BIT_WAIT_HIGH"
  | .bitSettle => "BIT_SETTLE"
  | .bitWaitLow => "BIT_WAIT_LOW"
  | .frameComplete => "FRAME_COMPLETE"
  | .timedOut => "TIMED_OUT"

/-- Is the operation a host access (format host_access) or a micro-operation of the sequencer (format engine_phase)? -/
def Instr.isAccess (i : Instr) : Bool :=
  match encode i with
  | .access _ => true
  | .phase _ => false

end Sys2Proof
end

