-- ==== Sys2Proof/Config.lean ====
section
/-! DEFINITION. What is fixed when the block is built (R7), the structural constants, and the free values. -/

namespace Sys2Proof.Config

/-- The build parameters of R7, in ticks.
A block carries its own record in `State.cfg`; no event changes it, so a statement over all states is a statement
over all of them. -/
structure Build where
  /-- `T_RESET_US`: ticks the reset pulse drives the line low. -/
  tResetUs : Nat
  /-- `T_RELEASE_US`: ticks from the release tick to the first presence sample. -/
  tReleaseUs : Nat
  /-- `T_SETTLE_US`: ticks from the start-of-bit sample to the bit's sample. -/
  tSettleUs : Nat
  deriving DecidableEq, Repr

/-- R7's legal ranges: 18001 ≤ T_RESET_US < 2^32, T_RELEASE_US in 20..40, 1 ≤ T_SETTLE_US < 2^16. -/
def Build.legal (c : Build) : Bool :=
  decide (18001 ≤ c.tResetUs) && decide (c.tResetUs < 2 ^ 32) &&
  decide (20 ≤ c.tReleaseUs) && decide (c.tReleaseUs ≤ 40) &&
  decide (1 ≤ c.tSettleUs) && decide (c.tSettleUs < 2 ^ 16)

/-- R7's defaults: 20000, 40 and 30 ticks. -/
def Build.standard : Build := { tResetUs := 20000, tReleaseUs := 40, tSettleUs := 30 }

/-- `TICK_US`: one tick is 1 µs (R6). Only tick counts enter the rules, so no rule reads it. -/
def tickUs : Nat := 1

/-- `FRAME_BYTES` of R7. -/
def frameBytes : Nat := 5

/-- `FRAME_BITS` of R7. -/
def frameBits : Nat := 40

/-- `DECODE_SCALE` of R7, the factor 10 of R182. -/
def decodeScale : Nat := 10

/-- `SYNC_STAGES`, fixed at 0 (93_implementation_defined.md I5): a Tick's level is the level its rule uses. -/
def syncStages : Nat := 0

/-- `SWPE_BASE`, left OPEN by 92_eei_decisions.md D4: a free value; no rule reads it. -/
opaque swpeBase : Nat

/-- `CLK_PER_TICK`, left OPEN by 92_eei_decisions.md D2: a free value; no rule reads it. -/
opaque clkPerTick : Nat

/-- The level the environment supplies to the n-th Tick that nobody has placed in `State.events`: "a free draw per Tick,
under no law" (R5, 93_implementation_defined.md I6). A free value, assumption log 3. -/
opaque lineDraw : Nat → Bool

end Sys2Proof.Config
end

