-- ==== Sys2Proof/Machine/State.lean ====
section
/-! DEFINITION. The state of the SWPE (10_state.md), its environment, its reasons to stop, and its state after Reset. -/

namespace Sys2Proof.Machine

/-- The sequencer's 11 phases (R21). Codes 11 to 15 "are never held. A model may use a type with exactly 11 values." -/
inductive Phase where
  | idle
  | rstLow
  | relWait
  | presLow
  | presHigh
  | presOk
  | bitWaitHigh
  | bitSettle
  | bitWaitLow
  | frameComplete
  | timedOut
  deriving DecidableEq, Repr

/-- The outcome of the last transaction (R30). -/
inductive ErrCode where
  | none
  | noPresence
  | bitTimeout
  | checksumMismatch
  deriving DecidableEq, Repr

/-- The point where the last transaction failed (R31). -/
inductive FailPoint where
  | none
  | presLow
  | presHigh
  | bitWaitHigh
  | bitWaitLow
  | checksum
  deriving DecidableEq, Repr

/-- The source's BusState, which STATUS.STATE shows (R38). `n` is the bit index of BitSync and the byte index of
ByteAssembled. -/
inductive BusState where
  | idle
  | resetAsserted
  | presenceWait
  | presenceConfirmed
  | bitSync (n : Nat)
  | byteAssembled (n : Nat)
  | frameComplete
  | timedOut
  deriving DecidableEq, Repr

/-- The frame buffer, the source's RawFrame: bytes 0 to 4 in this order (R25). -/
structure Frame where
  humidityHigh : Byte
  humidityLow : Byte
  temperatureHigh : Byte
  temperatureLow : Byte
  checksum : Byte
  deriving DecidableEq, Repr

/-- Five zero bytes. -/
def Frame.zero : Frame :=
  { humidityHigh := 0, humidityLow := 0, temperatureHigh := 0, temperatureLow := 0, checksum := 0 }

/-- The block state `s` of R20: "exactly the fields below. No other state exists." -/
structure Block where
  /-- `s.phase`, R21. -/
  phase : Phase
  /-- `s.timer`, 32 bits, R23. -/
  timer : BitVec 32
  /-- `s.polls`, 16 bits, R24. -/
  polls : Word
  /-- `s.frame[0..4]`, R25. -/
  frame : Frame
  /-- `s.bitidx`, 6 bits, R26. -/
  bitidx : BitVec 6
  /-- `s.temp`, the TEMP register, R27. -/
  temp : Word
  /-- `s.hum`, the HUM register, R28. -/
  hum : Word
  /-- `s.have`, R29. -/
  haveReading : Bool
  /-- `s.errcode`, R30. -/
  errcode : ErrCode
  /-- `s.failph`, R31. -/
  failph : FailPoint
  /-- `s.poll_us`, the POLL_US register, R32. -/
  pollUs : Word
  /-- `s.budget`, the BUDGET register, R33. -/
  budget : Word
  /-- `s.progerr`, R34. -/
  progerr : Bool
  deriving DecidableEq, Repr

/-- R43: the value of every field after a Reset event. -/
def Block.reset : Block :=
  { phase := .idle, timer := 0, polls := 0, frame := Frame.zero, bitidx := 0, temp := 0x0000, hum := 0x0000,
    haveReading := false, errcode := .none, failph := .none, pollUs := 1, budget := 100, progerr := false }

/-- The events of R5; a HostRead or HostWrite is the access word it carries (R80). -/
inductive Event where
  /-- One step of the sequencer, sampling this line level. -/
  | tick (level : Level)
  /-- One host register access. -/
  | access (w : AccessWord)
  /-- The block's hardware reset. -/
  | reset
  deriving DecidableEq, Repr

/-- The machine: the block, its build parameters, its ports, and the events the environment has in store for it. -/
structure State where
  /-- The build parameters of R7; no event changes them (assumption log 8). -/
  cfg : Config.Build
  /-- The block state of R20, whole. -/
  blk : Block
  /-- The port `line_i` as the latest Tick sampled it: `line` of R10. -/
  line : Level
  /-- The host port's read data: what the latest HostRead returned (R22, R80). -/
  rdata : Word
  /-- The model's own: the events to come in their total order, the next one first (R60; assumption log 2). -/
  events : List Event
  /-- The model's own: how many free line levels have been drawn (assumption log 3). -/
  draws : Nat
  deriving DecidableEq, Repr

/-- Why the machine stops. No error of the block is fatal (R200), so the one fault is a guard of the model's. -/
inductive Fault where
  /-- Raised by BIT_SETTLE where it would shift a bit into a frame byte beyond the five (BITIDX of 40 or more), which
  R150 says never happens. SAFE: the machine stops where the spec gives no effect; assumption log 7. -/
  | frameIndexOutOfRange
  deriving DecidableEq, Repr

/-- Why the machine gives no meaning. -/
inductive Refusal where
  /-- Raised by `exec` for an operation that has no meaning yet. SAFE: it proves nothing. -/
  | notModelled (mnemonic : String)
  /-- Raised by `step` where a build parameter is outside its legal range: "A model must refuse a build parameter
  outside its legal range" (R7). SAFE: no such block may be built; assumption log 8. -/
  | illegalBuildParameter
  deriving DecidableEq, Repr

/-- The outcome of one operation or of one step. -/
abbrev Result := Host.Outcome State Fault Refusal

/-- The machine right after Reset: the block at R43, built with R7's defaults, no event in store. The two ports hold the
values of assumption log 4 and 5. -/
def State.reset : State :=
  { cfg := Config.Build.standard, blk := Block.reset, line := true, rdata := 0x0000, events := [], draws := 0 }

end Sys2Proof.Machine
end

