-- ==== Sys2Proof/Machine/Flags.lean ====
section
/-! DEFINITION. What is derived from the block state: `busy`, the STATUS register and its fields (R36 to R38), and the
line outputs (R41). -/

namespace Sys2Proof.Machine

/-- The phase code of R21. -/
def Phase.code : Phase → BitVec 4
  | .idle => 0
  | .rstLow => 1
  | .relWait => 2
  | .presLow => 3
  | .presHigh => 4
  | .presOk => 5
  | .bitWaitHigh => 6
  | .bitSettle => 7
  | .bitWaitLow => 8
  | .frameComplete => 9
  | .timedOut => 10

/-- The phase a code stands for; codes 11 to 15 stand for none (R21, R84). -/
def Phase.ofCode (c : BitVec 4) : Option Phase :=
  match c.toNat with
  | 0 => some .idle
  | 1 => some .rstLow
  | 2 => some .relWait
  | 3 => some .presLow
  | 4 => some .presHigh
  | 5 => some .presOk
  | 6 => some .bitWaitHigh
  | 7 => some .bitSettle
  | 8 => some .bitWaitLow
  | 9 => some .frameComplete
  | 10 => some .timedOut
  | _ => none

/-- The two terminal phases (R21). -/
def Phase.isTerminal : Phase → Bool
  | .frameComplete | .timedOut => true
  | .idle | .rstLow | .relWait | .presLow | .presHigh | .presOk | .bitWaitHigh | .bitSettle | .bitWaitLow => false

/-- The four wait phases (00_scope.md glossary; R142). -/
def Phase.isWait : Phase → Bool
  | .presLow | .presHigh | .bitWaitHigh | .bitWaitLow => true
  | .idle | .rstLow | .relWait | .presOk | .bitSettle | .frameComplete | .timedOut => false

/-- The three phases that read a bit, the only ones in which the frame buffer may hold something (R39.7). -/
def Phase.isBit : Phase → Bool
  | .bitWaitHigh | .bitSettle | .bitWaitLow => true
  | .idle | .rstLow | .relWait | .presLow | .presHigh | .presOk | .frameComplete | .timedOut => false

/-- `busy(s)`: true exactly when the phase is not IDLE, FRAME_COMPLETE or TIMED_OUT (R36). Also the `busy` port. -/
def Block.busy (b : Block) : Bool :=
  match b.phase with
  | .idle | .frameComplete | .timedOut => false
  | .rstLow | .relWait | .presLow | .presHigh | .presOk | .bitWaitHigh | .bitSettle | .bitWaitLow => true

/-- The ERRCODE of R30. -/
def ErrCode.code : ErrCode → BitVec 2
  | .none => 0
  | .noPresence => 1
  | .bitTimeout => 2
  | .checksumMismatch => 3

/-- The FAILPH of R31. -/
def FailPoint.code : FailPoint → BitVec 3
  | .none => 0
  | .presLow => 1
  | .presHigh => 2
  | .bitWaitHigh => 3
  | .bitWaitLow => 4
  | .checksum => 5

/-- STATUS.DONE: the transaction has ended (R37). -/
def Block.done (b : Block) : Bool := b.phase.isTerminal

/-- STATUS.ERR, the error class: ERRCODE is not 0 (R37, R203). -/
def Block.err (b : Block) : Bool := b.errcode != .none

/-- STATUS.OK: done and ERRCODE 0 (R37). -/
def Block.ok (b : Block) : Bool := b.done && !b.err

/-- The BusState of R38, with the argument n the host works out from BITIDX. -/
def Block.busState (b : Block) : BusState :=
  match b.phase with
  | .idle => .idle
  | .rstLow | .relWait => .resetAsserted
  | .presLow | .presHigh => .presenceWait
  | .presOk => .presenceConfirmed
  | .bitWaitHigh | .bitSettle => .bitSync b.bitidx.toNat
  | .bitWaitLow =>
    if b.bitidx.toNat % 8 = 0 then .byteAssembled (b.bitidx.toNat / 8 - 1) else .bitSync (b.bitidx.toNat - 1)
  | .frameComplete => .frameComplete
  | .timedOut => .timedOut

/-- The STATE code of R38; the argument n is not part of it. -/
def BusState.code : BusState → BitVec 3
  | .idle => 0
  | .resetAsserted => 1
  | .presenceWait => 2
  | .presenceConfirmed => 3
  | .bitSync _ => 4
  | .byteAssembled _ => 5
  | .frameComplete => 6
  | .timedOut => 7

/-- The STATUS register, computed when it is read (R37, R102): bit 15 first. -/
def Block.status (b : Block) : Word :=
  0#2 ++ b.failph.code ++ b.busState.code ++ BitVec.ofBool b.progerr ++ BitVec.ofBool b.haveReading ++
    b.errcode.code ++ BitVec.ofBool b.err ++ BitVec.ofBool b.ok ++ BitVec.ofBool b.done ++ BitVec.ofBool b.busy

/-- The port `line_mode`: true is strong drive, false the pull-up input (R22, R41). -/
def Block.lineMode (b : Block) : Bool :=
  match b.phase with
  | .rstLow => true
  | .idle | .relWait | .presLow | .presHigh | .presOk | .bitWaitHigh | .bitSettle | .bitWaitLow
  | .frameComplete | .timedOut => false

/-- The port `line_o`: the level driven in strong drive, the pull-up level otherwise (R22, R41). -/
def Block.lineOut (b : Block) : Level :=
  match b.phase with
  | .rstLow => false
  | .idle | .relWait | .presLow | .presHigh | .presOk | .bitWaitHigh | .bitSettle | .bitWaitLow
  | .frameComplete | .timedOut => true

end Sys2Proof.Machine
end

