-- ==== Sys2Proof/Machine/Operands.lean ====
section
/-! DEFINITION. Operand forms: the host register space (R66, R67), the one operand DATA (R83), and the frame buffer's byte
and bit positions (R71, R72, R150). -/

namespace Sys2Proof.Machine

/-- What a read of each word address returns (R67): CTRL and the unmapped addresses 0x7 to 0xF read 0x0000. -/
def Block.readRegister (b : Block) (addr : Addr) : Word :=
  match addr.toNat with
  | 0x0 => 0x0000#16
  | 0x1 => b.status
  | 0x2 => b.temp
  | 0x3 => b.hum
  | 0x4 => b.pollUs
  | 0x5 => b.budget
  | 0x6 => b.bitidx.setWidth 16
  | _ => 0x0000#16

/-- Write-any-read-legal, for POLL_US and BUDGET: a written 0 is stored as 1, any other value as written (R32, R33). -/
def legalTiming (v : Word) : Word := if v = 0x0000#16 then 0x0001#16 else v

/-- One bit into a byte: `({byte, line})[7:0]`, the new bit in bit 0 (R150). -/
def shiftBit (byte : Byte) (line : Level) : Byte := (byte ++ BitVec.ofBool line).setWidth 8

/-- Shifts one bit into `frame[k]`; there are five bytes and no other (R150). -/
def Frame.shiftInto (f : Frame) (k : Nat) (line : Level) : Option Frame :=
  match k with
  | 0 => some { f with humidityHigh := shiftBit f.humidityHigh line }
  | 1 => some { f with humidityLow := shiftBit f.humidityLow line }
  | 2 => some { f with temperatureHigh := shiftBit f.temperatureHigh line }
  | 3 => some { f with temperatureLow := shiftBit f.temperatureLow line }
  | 4 => some { f with checksum := shiftBit f.checksum line }
  | _ => none

end Sys2Proof.Machine
end

