-- ==== Sys2Proof/Machine/Ops.lean ====
section
/-! DEFINITION. The named operations every meaning is made of: errors and completion (R180 to R185, R201), entering a phase
(R141), the bounded wait (R142), programming errors (R34), the Reset event (R230), and taking the next event (R60). -/

namespace Sys2Proof.Machine

/-! ## Checksum and decode (42_checksum_decode.md) -/

/-- The sum of the four data bytes, over naturals (R180). -/
def Frame.sum (f : Frame) : Nat :=
  f.humidityHigh.toNat + f.humidityLow.toNat + f.temperatureHigh.toNat + f.temperatureLow.toNat

/-- `checksum_ok(f)` (R180). -/
def Frame.checksumOk (f : Frame) : Bool := f.sum % 256 == f.checksum.toNat

/-- `decode_temp(f)`: temperature in hundredths of a degree (R182). -/
def Frame.decodeTemp (f : Frame) : Nat := f.temperatureHigh.toNat * Config.decodeScale + f.temperatureLow.toNat

/-- `decode_hum(f)`: humidity in tenths of a percent (R182). -/
def Frame.decodeHum (f : Frame) : Nat := f.humidityHigh.toNat * Config.decodeScale + f.humidityLow.toNat

/-! ## How a transaction ends -/

/-- The phase an error ends in: FRAME_COMPLETE for a checksum mismatch, TIMED_OUT otherwise (R201). -/
def ErrCode.endPhase : ErrCode → Phase
  | .checksumMismatch => .frameComplete
  | .none | .noPresence | .bitTimeout => .timedOut

/-- `fail(code, fp)`: taking a transaction error, the block's only exception (R201, R207). It saves no return state. -/
def Block.fail (code : ErrCode) (fp : FailPoint) (b : Block) : Block :=
  { b with errcode := code, failph := fp, frame := Frame.zero, timer := 0, polls := 0, phase := code.endPhase }

/-- `commit(f)`: writes a good reading, TEMP and HUM in one event (R185). -/
def Block.commit (f : Frame) (b : Block) : Block :=
  { b with temp := BitVec.ofNat 16 f.decodeTemp, hum := BitVec.ofNat 16 f.decodeHum, haveReading := true,
           errcode := .none, failph := .none, frame := Frame.zero, timer := 0, polls := 0, phase := .frameComplete }

/-- `complete()`: the checksum decides between a reading and ChecksumMismatch (R184). -/
def Block.complete (b : Block) : Block :=
  if b.frame.checksumOk then b.commit b.frame else b.fail .checksumMismatch .checksum

/-! ## The host's two ways out of an ended transaction (R208) -/

/-- A new transaction: START's effect when not busy (R111). -/
def Block.begin (cfg : Config.Build) (b : Block) : Block :=
  { b with errcode := .none, failph := .none, bitidx := 0, frame := Frame.zero, polls := 0,
           timer := BitVec.ofNat 32 cfg.tResetUs, phase := .rstLow }

/-- Back to IDLE: CLEAR's effect on the outcome when not busy (R112). -/
def Block.toIdle (b : Block) : Block :=
  { b with phase := .idle, errcode := .none, failph := .none, bitidx := 0 }

/-- A programming error: sets the sticky PROGERR and changes nothing else (R34, R200). -/
def Block.progError (b : Block) : Block := { b with progerr := true }

/-- Clears PROGERR (R112). -/
def Block.clearProgerr (b : Block) : Block := { b with progerr := false }

/-- A write that is accepted only while the block is not busy and a programming error otherwise (R111, R117, R118). -/
def Block.whenNotBusy (f : Block → Block) (b : Block) : Block := if b.busy then b.progError else f b

/-! ## The sequencer's primitives (41_bus_engine.md) -/

/-- The timer a phase is entered with (R141). -/
def enterTimer (cfg : Config.Build) : Phase → BitVec 32
  | .relWait => BitVec.ofNat 32 (cfg.tReleaseUs - 1)
  | .bitSettle => BitVec.ofNat 32 cfg.tSettleUs
  | .idle | .rstLow | .presLow | .presHigh | .presOk | .bitWaitHigh | .bitWaitLow | .frameComplete | .timedOut => 0

/-- `enter(p)` (R141). -/
def Block.enter (cfg : Config.Build) (p : Phase) (b : Block) : Block :=
  { b with phase := p, polls := 0, timer := enterTimer cfg p }

/-- One tick less to go: the 32-bit down-counter (R23; for a timer of 0, which no rule produces, assumption log 6). -/
def Block.countDown (b : Block) : Block := { b with timer := b.timer - 1 }

/-- A timed phase: on its last tick it enters the next phase (R144, R145). -/
def Block.timedStep (onLast : Block → Block) (b : Block) : Block :=
  if b.timer = 1 then onLast b else b.countDown

/-- One more failed sample, and `poll_us − 1` ticks to the next one (R142). -/
def Block.missedSample (b : Block) : Block :=
  { b with polls := b.polls + 1, timer := b.pollUs.setWidth 32 - 1 }

/-- `WaitStep(target, code, fp, onSuccess)`: the one bounded wait of all four wait phases (R142). -/
def Block.waitStep (target : Level) (code : ErrCode) (fp : FailPoint) (onSuccess : Block → Block) (line : Level)
    (b : Block) : Block :=
  if b.timer ≠ 0 then b.countDown
  else if line = target then onSuccess b
  else if b.polls.toNat + 1 = b.budget.toNat then b.fail code fp
  else b.missedSample

/-- BIT_SETTLE's last tick: the sample goes into byte `bitidx div 8` and counts (R150). None where there is no such
byte. -/
def Block.sampleBit (cfg : Config.Build) (line : Level) (b : Block) : Option Block :=
  match b.frame.shiftInto (b.bitidx.toNat / 8) line with
  | some f => some (({ b with frame := f, bitidx := b.bitidx + 1 } : Block).enter cfg .bitWaitLow)
  | none => none

/-! ## Operations on the machine -/

/-- The machine with its block changed. -/
def State.onBlock (f : Block → Block) (s : State) : State := { s with blk := f s.blk }

/-- A HostRead: returns a value on the host port and changes no block state (R100). -/
def hostRead (v : Word) (s : State) : Result := .next { s with rdata := v }

/-- A HostWrite: one change of the block (R100). -/
def hostWrite (f : Block → Block) (s : State) : Result := .next (s.onBlock f)

/-- A micro-operation of the sequencer: one change of the block (R140). -/
def engineStep (f : Block → Block) (s : State) : Result := .next (s.onBlock f)

/-- The Reset event: every field of the block at once, with no Tick needed; the build parameters and the environment
stay (R230, R231). -/
def resetEvent (s : State) : State := { s with blk := Block.reset }

/-- A Tick samples the line (R5, R10). -/
def sampleLine (level : Level) (s : State) : State := { s with line := level }

/-- The next event and the machine without it. Where none is placed, time goes on: a Tick comes, and its level is a
free value (R5; assumption log 3). -/
def takeEvent (s : State) : Event × State :=
  match s.events with
  | [] => (.tick (Config.lineDraw s.draws), { s with draws := s.draws + 1 })
  | e :: es => (e, { s with events := es })

/-- The micro-operation that a Tick performs in each phase (R140). -/
def Phase.operation : Phase → Instr
  | .idle => .idle
  | .rstLow => .rstLow
  | .relWait => .relWait
  | .presLow => .presLow
  | .presHigh => .presHigh
  | .presOk => .presOk
  | .bitWaitHigh => .bitWaitHigh
  | .bitSettle => .bitSettle
  | .bitWaitLow => .bitWaitLow
  | .frameComplete => .frameComplete
  | .timedOut => .timedOut

/-- Puts an operation where the next step finds it: an access word becomes the next event; a phase code becomes the
phase, with a Tick of the present line level as the next event. A reserved phase code cannot be held, so it places
nothing (assumption log 11). -/
def placeCode (c : Code) (s : State) : State :=
  match c with
  | .access w => { s with events := .access w :: s.events }
  | .phase p =>
    match Phase.ofCode p with
    | some ph => { s with blk := { s.blk with phase := ph }, events := .tick s.line :: s.events }
    | none => s

end Sys2Proof.Machine
end

