-- ==== Sys2Proof/Machine/Engine.lean ====
section
/-! DEFINITION. The eleven micro-operations of the sequencer (R143 to R153). Each reads the block, the build parameters and
the sampled line, and nothing of the host's (R140). -/

namespace Sys2Proof.Machine

/-- IDLE: no effect (R143). -/
def execIdle (s : State) : Result := engineStep id s

/-- RST_LOW, the reset pulse generator (R144). -/
def execRstLow (s : State) : Result := engineStep (Block.timedStep (Block.enter s.cfg .relWait)) s

/-- REL_WAIT, the release wait (R145). -/
def execRelWait (s : State) : Result := engineStep (Block.timedStep (Block.enter s.cfg .presLow)) s

/-- PRES_LOW, the first half of the presence detector (R146). -/
def execPresLow (s : State) : Result :=
  engineStep (Block.waitStep true .noPresence .presLow (Block.enter s.cfg .presHigh) s.line) s

/-- PRES_HIGH, the second half of the presence detector (R147). -/
def execPresHigh (s : State) : Result :=
  engineStep (Block.waitStep false .noPresence .presHigh (Block.enter s.cfg .presOk) s.line) s

/-- PRES_OK: presence confirmed, one tick (R148). -/
def execPresOk (s : State) : Result := engineStep (Block.enter s.cfg .bitWaitHigh) s

/-- BIT_WAIT_HIGH, the start-of-bit detector (R149). -/
def execBitWaitHigh (s : State) : Result :=
  engineStep (Block.waitStep true .bitTimeout .bitWaitHigh (Block.enter s.cfg .bitSettle) s.line) s

/-- BIT_SETTLE, the settle window, bit sampler and byte assembler (R150). -/
def execBitSettle (s : State) : Result :=
  if s.blk.timer = 1 then
    match s.blk.sampleBit s.cfg s.line with
    | some b => .next { s with blk := b }
    | none => .fault .frameIndexOutOfRange
  else engineStep Block.countDown s

/-- BIT_WAIT_LOW, the end-of-slot detector; the 40th low completes the frame (R151). -/
def execBitWaitLow (s : State) : Result :=
  engineStep (Block.waitStep false .bitTimeout .bitWaitLow
    (fun b => if b.bitidx = 40 then b.complete else b.enter s.cfg .bitWaitHigh) s.line) s

/-- FRAME_COMPLETE, terminal: no effect (R152). -/
def execFrameComplete (s : State) : Result := engineStep id s

/-- TIMED_OUT, terminal: no effect (R153). -/
def execTimedOut (s : State) : Result := engineStep id s

end Sys2Proof.Machine
end

