-- ==== Sys2Proof/Machine/HostRead.lean ====
section
/-! DEFINITION. The nine reads (R101 to R109). A read's DATA is ignored (R80, R83). -/

namespace Sys2Proof.Machine

/-- RD_CTRL: CTRL has no storage and reads 0x0000 (R101, R35). -/
def execRdCtrl (_data : Word) (s : State) : Result := hostRead (s.blk.readRegister 0x0) s

/-- RD_STATUS (R102). -/
def execRdStatus (_data : Word) (s : State) : Result := hostRead (s.blk.readRegister 0x1) s

/-- RD_TEMP (R103). -/
def execRdTemp (_data : Word) (s : State) : Result := hostRead (s.blk.readRegister 0x2) s

/-- RD_HUM (R104). -/
def execRdHum (_data : Word) (s : State) : Result := hostRead (s.blk.readRegister 0x3) s

/-- RD_POLL_US (R105). -/
def execRdPollUs (_data : Word) (s : State) : Result := hostRead (s.blk.readRegister 0x4) s

/-- RD_BUDGET (R106). -/
def execRdBudget (_data : Word) (s : State) : Result := hostRead (s.blk.readRegister 0x5) s

/-- RD_BITIDX (R107). -/
def execRdBitidx (_data : Word) (s : State) : Result := hostRead (s.blk.readRegister 0x6) s

/-- RD_UNMAPPED_7 (R108). -/
def execRdUnmapped7 (_data : Word) (s : State) : Result := hostRead (s.blk.readRegister 0x7) s

/-- RD_UNMAPPED_8F (R109): ADDR is 1 followed by `lo`. -/
def execRdUnmapped8F (lo : BitVec 3) (_data : Word) (s : State) : Result :=
  hostRead (s.blk.readRegister (1#1 ++ lo)) s

end Sys2Proof.Machine
end

