-- ==== Sys2Proof/Machine/HostWrite.lean ====
section
/-! DEFINITION. The twelve writes: commands (R110 to R113), read-only registers (R114 to R116, R119), the timing registers
(R117, R118), unmapped space (R120, R121). -/

namespace Sys2Proof.Machine

/-- NOP: no effect (R110). -/
def execNop (s : State) : Result := hostWrite id s

/-- START: begins a transaction, or is rejected as a programming error while busy (R111). -/
def execStart (s : State) : Result := hostWrite (Block.whenNotBusy (Block.begin s.cfg)) s

/-- CLEAR: clears PROGERR; when not busy, back to IDLE with the outcome cleared (R112). -/
def execClear (s : State) : Result :=
  hostWrite (fun b => if b.busy then b.clearProgerr else b.clearProgerr.toIdle) s

/-- CTRL_RSVD: a programming error (R113). -/
def execCtrlRsvd (_data : Word) (s : State) : Result := hostWrite Block.progError s

/-- WR_STATUS: ignored (R114). -/
def execWrStatus (_data : Word) (s : State) : Result := hostWrite id s

/-- WR_TEMP: ignored (R115). -/
def execWrTemp (_data : Word) (s : State) : Result := hostWrite id s

/-- WR_HUM: ignored (R116). -/
def execWrHum (_data : Word) (s : State) : Result := hostWrite id s

/-- WR_POLL_US: stored write-any-read-legal, or rejected as a programming error while busy (R117). -/
def execWrPollUs (data : Word) (s : State) : Result :=
  hostWrite (Block.whenNotBusy fun b => { b with pollUs := legalTiming data }) s

/-- WR_BUDGET: stored write-any-read-legal, or rejected as a programming error while busy (R118). -/
def execWrBudget (data : Word) (s : State) : Result :=
  hostWrite (Block.whenNotBusy fun b => { b with budget := legalTiming data }) s

/-- WR_BITIDX: ignored (R119). -/
def execWrBitidx (_data : Word) (s : State) : Result := hostWrite id s

/-- WR_UNMAPPED_7: ignored (R120). -/
def execWrUnmapped7 (_data : Word) (s : State) : Result := hostWrite id s

/-- WR_UNMAPPED_8F: ignored (R121). -/
def execWrUnmapped8F (_lo : BitVec 3) (_data : Word) (s : State) : Result := hostWrite id s

end Sys2Proof.Machine
end

