-- ==== Sys2Proof/Machine/Dispatch.lean ====
section
/-! DEFINITION. One arm per operation of the opcode table. -/

namespace Sys2Proof.Machine

/-- The meaning of each operation. -/
def exec (i : Instr) (s : State) : Host.Outcome State Fault Refusal :=
  match i with
  -- reads
  | .rdCtrl data => Sys2Proof.Machine.execRdCtrl data s
  | .rdStatus data => Sys2Proof.Machine.execRdStatus data s
  | .rdTemp data => Sys2Proof.Machine.execRdTemp data s
  | .rdHum data => Sys2Proof.Machine.execRdHum data s
  | .rdPollUs data => Sys2Proof.Machine.execRdPollUs data s
  | .rdBudget data => Sys2Proof.Machine.execRdBudget data s
  | .rdBitidx data => Sys2Proof.Machine.execRdBitidx data s
  | .rdUnmapped7 data => Sys2Proof.Machine.execRdUnmapped7 data s
  | .rdUnmapped8F lo data => Sys2Proof.Machine.execRdUnmapped8F lo data s
  -- commands
  | .nop => Sys2Proof.Machine.execNop s
  | .start => Sys2Proof.Machine.execStart s
  | .clear => Sys2Proof.Machine.execClear s
  | .ctrlRsvd data => Sys2Proof.Machine.execCtrlRsvd data s
  -- writes to registers and to unmapped space
  | .wrStatus data => Sys2Proof.Machine.execWrStatus data s
  | .wrTemp data => Sys2Proof.Machine.execWrTemp data s
  | .wrHum data => Sys2Proof.Machine.execWrHum data s
  | .wrPollUs data => Sys2Proof.Machine.execWrPollUs data s
  | .wrBudget data => Sys2Proof.Machine.execWrBudget data s
  | .wrBitidx data => Sys2Proof.Machine.execWrBitidx data s
  | .wrUnmapped7 data => Sys2Proof.Machine.execWrUnmapped7 data s
  | .wrUnmapped8F lo data => Sys2Proof.Machine.execWrUnmapped8F lo data s
  -- the sequencer's micro-operations
  | .idle => Sys2Proof.Machine.execIdle s
  | .rstLow => Sys2Proof.Machine.execRstLow s
  | .relWait => Sys2Proof.Machine.execRelWait s
  | .presLow => Sys2Proof.Machine.execPresLow s
  | .presHigh => Sys2Proof.Machine.execPresHigh s
  | .presOk => Sys2Proof.Machine.execPresOk s
  | .bitWaitHigh => Sys2Proof.Machine.execBitWaitHigh s
  | .bitSettle => Sys2Proof.Machine.execBitSettle s
  | .bitWaitLow => Sys2Proof.Machine.execBitWaitLow s
  | .frameComplete => Sys2Proof.Machine.execFrameComplete s
  | .timedOut => Sys2Proof.Machine.execTimedOut s

end Sys2Proof.Machine
end

