-- ==== Sys2Proof/Machine/Step.lean ====
section
/-! DEFINITION. One step: one event of R5, taken in the total order of R60. -/

namespace Sys2Proof.Machine

/-- One event. A Tick performs the micro-operation of the phase (R140), a host access the operation its word selects
(R81), Reset its own (R230). An illegal build is refused (R7). -/
def step (s : State) : Host.Outcome State Fault Refusal :=
  if s.cfg.legal then
    match takeEvent s with
    | (.tick level, t) => exec t.blk.phase.operation (sampleLine level t)
    | (.access w, t) => exec (decodeAccess w) t
    | (.reset, t) => .next (resetEvent t)
  else .refused .illegalBuildParameter

/-- `s` with the operation of a table word where the next step finds it. -/
def State.withFetchWord (s : State) (nbits w : Nat) : State :=
  match tableCode nbits w with
  | some c => placeCode c s
  | none => s

end Sys2Proof.Machine
end

