-- ==== Sys2Proof/Machine/Assembler.lean ====
section
/-! DEFINITION. The host side of R86 and R87: register names, lines of host programs, their access words and events, and the
pseudo-instructions. Nothing here is state of the block. -/

namespace Sys2Proof.Machine

/-- `<reg>` of R86; the numeric addresses A0x7 to A0xF are the last two. -/
inductive RegName where
  | ctrl
  | status
  | temp
  | hum
  | pollUs
  | budget
  | bitidx
  | unmapped7
  | unmapped8F (lo : BitVec 3)
  deriving DecidableEq, Repr

/-- The word address of a register (R67). -/
def RegName.addr : RegName → Addr
  | .ctrl => 0x0
  | .status => 0x1
  | .temp => 0x2
  | .hum => 0x3
  | .pollUs => 0x4
  | .budget => 0x5
  | .bitidx => 0x6
  | .unmapped7 => 0x7
  | .unmapped8F lo => 1#1 ++ lo

/-- One line of a host program (R86). -/
inductive AsmLine where
  | rd (reg : RegName)
  | wr (reg : RegName) (imm : Word)
  | nop
  | start
  | clear
  deriving DecidableEq, Repr

/-- The access word of a line (R86); an assembler emits DATA = 0x0000 for a read (R80). -/
def AsmLine.word : AsmLine → AccessWord
  | .rd reg => accessWord false reg.addr 0x0000
  | .wr reg imm => accessWord true reg.addr imm
  | .nop => accessWord true RegName.ctrl.addr 0x0000
  | .start => accessWord true RegName.ctrl.addr 0x0001
  | .clear => accessWord true RegName.ctrl.addr 0x0002

/-- The encoded word as 6 hex digits, bit 20 in the top digit (R86). -/
def hexDigits (w : AccessWord) : List (BitVec 4) :=
  [20, 16, 12, 8, 4, 0].map fun k => (w.setWidth 24).extractLsb' k 4

/-- A line as the event it causes. -/
def AsmLine.event (l : AsmLine) : Event := .access l.word

/-- `TICK n` on a waveform: n Ticks with the waveform's levels, from tick number `first` on (R86). -/
def tickLine (wave : Nat → Level) (first n : Nat) : List Event :=
  (List.range n).map fun k => .tick (wave (first + k))

/-- `SET_TIMING p, b` (R87). -/
def setTiming (p b : Word) : List AsmLine := [.wr .pollUs p, .wr .budget b]

/-- `READ_RESULT` (R87). -/
def readResult : List AsmLine := [.rd .status, .rd .temp, .rd .hum]

/-- Does a STATUS value show BUSY (bit 0)? -/
def showsBusy (status : Word) : Bool := status.getLsbD 0

/-- The pair of READ_RESULT is a reading when its STATUS shows BUSY = 0 and HAVE = 1 (R87, R238). -/
def showsReading (status : Word) : Bool := !showsBusy status && status.getLsbD 6

/-- The outcome of READ_FRAME: STATUS bits [5:4] (R87). -/
def frameOutcome (status : Word) : BitVec 2 := status.extractLsb' 4 2

/-- Goes on from a next state; a stop stays a stop. -/
def andThen (r : Result) (f : State → Result) : Result :=
  match r with
  | .next s => f s
  | .fault e => .fault e
  | .refused e => .refused e

/-- One event, ahead of those in store. -/
def perform (e : Event) (s : State) : Result := step { s with events := e :: s.events }

/-- Several events in order. -/
def performAll : List Event → State → Result
  | [], s => .next s
  | e :: es, s => andThen (perform e s) (performAll es)

/-- `TICK_UNTIL_IDLE`: Ticks until `busy(s)` is false (R86), at most as many as there are levels. -/
def ticksUntilIdle : List Level → State → Result
  | [], s => .next s
  | l :: ls, s => if s.blk.busy then andThen (perform (.tick l) s) (ticksUntilIdle ls) else .next s

/-- `WAIT_IDLE`: RD STATUS until bit 0 of the value read is 0 (R87). The list holds the levels of the Ticks that come
before each poll; it bounds the polls. -/
def waitIdle : List (List Level) → State → Result
  | [], s => .next s
  | ls :: rest, s =>
    andThen (performAll (ls.map .tick) s) fun t =>
      andThen (perform (AsmLine.rd .status).event t) fun u =>
        if showsBusy u.rdata then waitIdle rest u else .next u

/-- `READ_FRAME`: START, then WAIT_IDLE; its outcome is `frameOutcome` of the value last read (R87, R233). -/
def readFrame (polls : List (List Level)) (s : State) : Result :=
  andThen (perform AsmLine.start.event s) (waitIdle polls)

end Sys2Proof.Machine
end

