-- ==== Sys2Proof/Safety.lean ====
section
/-! DEFINITION. What claims are stated in: the invariant of the block (R39 with R23 to R29), the tick bounds of R156, runs of
Ticks, and the bits a transaction samples. -/

namespace Sys2Proof.Safety

open Sys2Proof.Machine

/-! ## The invariant -/

/-- The three timed phases (R23). -/
def isTimed : Phase → Bool
  | .rstLow | .relWait | .bitSettle => true
  | .idle | .presLow | .presHigh | .presOk | .bitWaitHigh | .bitWaitLow | .frameComplete | .timedOut => false

/-- The ticks a timed phase lasts (R244); 0 for the other phases. -/
def timedTicks (cfg : Config.Build) : Phase → Nat
  | .rstLow => cfg.tResetUs
  | .relWait => cfg.tReleaseUs - 1
  | .bitSettle => cfg.tSettleUs
  | .idle | .presLow | .presHigh | .presOk | .bitWaitHigh | .bitWaitLow | .frameComplete | .timedOut => 0

/-- R39's seven items. -/
structure ReachableFacts (b : Block) : Prop where
  /-- Item 1. -/
  err_terminal : b.errcode ≠ .none → b.phase = .frameComplete ∨ b.phase = .timedOut
  /-- Item 2. -/
  timed_out : b.phase = .timedOut →
    (b.errcode = .noPresence ∨ b.errcode = .bitTimeout) ∧
    (b.failph = .presLow ∨ b.failph = .presHigh ∨ b.failph = .bitWaitHigh ∨ b.failph = .bitWaitLow)
  /-- Item 3. -/
  frame_complete : b.phase = .frameComplete →
    (b.errcode = .none ∧ b.failph = .none ∧ b.bitidx = 40) ∨
    (b.errcode = .checksumMismatch ∧ b.failph = .checksum ∧ b.bitidx = 40)
  /-- Item 4, first half. -/
  no_presence : b.errcode = .noPresence ↔ b.failph = .presLow ∨ b.failph = .presHigh
  /-- Item 4, second half. -/
  bit_timeout : b.errcode = .bitTimeout ↔ b.failph = .bitWaitHigh ∨ b.failph = .bitWaitLow
  /-- Item 5. -/
  early_bitidx : b.phase = .idle ∨ b.phase = .rstLow ∨ b.phase = .relWait ∨ b.phase = .presLow ∨
    b.phase = .presHigh ∨ b.phase = .presOk → b.bitidx = 0
  /-- Item 6. -/
  poll_us_pos : 1 ≤ b.pollUs.toNat
  /-- Item 6. -/
  budget_pos : 1 ≤ b.budget.toNat
  /-- Item 6. -/
  polls_bound : b.polls.toNat ≤ b.budget.toNat - 1
  /-- Item 6. -/
  bitidx_bound : b.bitidx.toNat ≤ 40
  /-- Item 7. -/
  frame_zero : b.phase.isBit = false → b.frame = Frame.zero

/-- What R23, R24, R26, R27, R28 and R29 say of every state a run reaches. -/
structure CounterFacts (cfg : Config.Build) (b : Block) : Prop where
  /-- A timed phase has at least one tick left and never more than it was entered with (R23, R141, R111). -/
  timed_timer : isTimed b.phase = true → 1 ≤ b.timer.toNat ∧ b.timer.toNat ≤ timedTicks cfg b.phase
  /-- A wait phase waits less than POLL_US ticks for its next sample (R23, R142). -/
  wait_timer : b.phase.isWait = true → b.timer.toNat ≤ b.pollUs.toNat - 1
  /-- Elsewhere the timer is 0 (R23). -/
  rest_timer : isTimed b.phase = false → b.phase.isWait = false → b.timer = 0
  /-- Outside wait phases no failed sample is counted (R24). -/
  rest_polls : b.phase.isWait = false → b.polls = 0
  /-- Before a bit's sample its index is 0..39 (R26, R150). -/
  before_sample : b.phase = .bitWaitHigh ∨ b.phase = .bitSettle → b.bitidx.toNat ≤ 39
  /-- After a bit's sample at least one bit is counted (R26). -/
  after_sample : b.phase = .bitWaitLow → 1 ≤ b.bitidx.toNat
  /-- TEMP is in 0..2805 (R27). -/
  temp_range : b.temp.toNat ≤ 2805
  /-- HUM is in 0..2805 (R28). -/
  hum_range : b.hum.toNat ≤ 2805
  /-- Without a reading both read 0 (R29). -/
  no_reading : b.haveReading = false → b.temp = 0 ∧ b.hum = 0

/-- The invariant of the block: R39, and the counters' ranges. -/
def BlockInv (cfg : Config.Build) (b : Block) : Prop := ReachableFacts b ∧ CounterFacts cfg b

/-- The invariant: legal build parameters (R7), and the block's invariant. -/
def Inv (s : State) : Prop := s.cfg.legal = true ∧ BlockInv s.cfg s.blk

/-! ## Tick bounds -/

/-- W = (B−1)·P + 1, the longest a wait phase lasts (R142). -/
def waitBound (b : Block) : Nat := (b.budget.toNat - 1) * b.pollUs.toNat + 1

/-- T_max of R156. -/
def tMax (cfg : Config.Build) (b : Block) : Nat :=
  cfg.tResetUs + (cfg.tReleaseUs - 1) + 2 * waitBound b + 1 + 40 * (2 * waitBound b + cfg.tSettleUs)

/-- T_min_ok of R156. -/
def tMinOk (cfg : Config.Build) : Nat :=
  cfg.tResetUs + (cfg.tReleaseUs - 1) + 3 + 40 * (cfg.tSettleUs + 2)

/-- The most ticks a wait phase still takes, counted from the sample it waits for. -/
def waitLeft (b : Block) : Nat :=
  b.timer.toNat + (b.budget.toNat - 1 - b.polls.toNat) * b.pollUs.toNat + 1

/-- The most ticks the transaction in flight still takes: the measure behind R156. -/
def ticksLeft (cfg : Config.Build) (b : Block) : Nat :=
  match b.phase with
  | .idle | .frameComplete | .timedOut => 0
  | .rstLow => b.timer.toNat + (cfg.tReleaseUs - 1) + 2 * waitBound b + 1 + 40 * (2 * waitBound b + cfg.tSettleUs)
  | .relWait => b.timer.toNat + 2 * waitBound b + 1 + 40 * (2 * waitBound b + cfg.tSettleUs)
  | .presLow => waitLeft b + waitBound b + 1 + 40 * (2 * waitBound b + cfg.tSettleUs)
  | .presHigh => waitLeft b + 1 + 40 * (2 * waitBound b + cfg.tSettleUs)
  | .presOk => 1 + 40 * (2 * waitBound b + cfg.tSettleUs)
  | .bitWaitHigh =>
    waitLeft b + cfg.tSettleUs + waitBound b + (39 - b.bitidx.toNat) * (2 * waitBound b + cfg.tSettleUs)
  | .bitSettle => b.timer.toNat + waitBound b + (39 - b.bitidx.toNat) * (2 * waitBound b + cfg.tSettleUs)
  | .bitWaitLow => waitLeft b + (40 - b.bitidx.toNat) * (2 * waitBound b + cfg.tSettleUs)

/-! ## The frame and the wait phases, as tables -/

/-- Byte k of the frame buffer, as `s.frame[k]` of R25. -/
def frameByte (f : Frame) (k : Nat) : Byte :=
  match k with
  | 0 => f.humidityHigh
  | 1 => f.humidityLow
  | 2 => f.temperatureHigh
  | 3 => f.temperatureLow
  | 4 => f.checksum
  | _ => 0

/-- One row of the wait phases: the phase and its operation, the level it waits for, and what it records when its budget
is used up. -/
structure WaitRow where
  phase : Phase
  op : Instr
  target : Level
  code : ErrCode
  fp : FailPoint
  deriving DecidableEq, Repr

/-- The four wait phases, from the headers of R146, R147, R149 and R151. -/
def waitRows : List WaitRow := [
  { phase := .presLow, op := .presLow, target := true, code := .noPresence, fp := .presLow },
  { phase := .presHigh, op := .presHigh, target := false, code := .noPresence, fp := .presHigh },
  { phase := .bitWaitHigh, op := .bitWaitHigh, target := true, code := .bitTimeout, fp := .bitWaitHigh },
  { phase := .bitWaitLow, op := .bitWaitLow, target := false, code := .bitTimeout, fp := .bitWaitLow } ]

/-! ## Events and runs -/

/-- The machine with these events in store, and no others. -/
def withEvents (es : List Event) (s : State) : State := { s with events := es }

/-- The machine with one Tick of each level in store, in order. -/
def withTicks (levels : List Level) (s : State) : State := withEvents (levels.map .tick) s

/-- `n` steps of the machine. -/
def runs (n : Nat) (s t : State) : Prop := Host.Core.run Sys2Proof.core n s = .next t

/-- Does a Tick in this state sample the line (R157)? -/
def samplesLine (b : Block) : Bool :=
  (b.phase.isWait && b.timer == 0) || (b.phase == .bitSettle && b.timer == 1)

/-- Does a Tick in this state sample a data bit (R150)? -/
def samplesBit (b : Block) : Bool := b.phase == .bitSettle && b.timer == 1

/-- The data bits sampled while these Ticks run, first bit first. -/
def sampledBits : List Level → State → List Level
  | [], _ => []
  | l :: ls, s =>
    match perform (.tick l) s with
    | .next t => (if samplesBit s.blk then [l] else []) ++ sampledBits ls t
    | .fault _ => []
    | .refused _ => []

/-- The byte that bits 8k to 8k+7 of a bit sequence spell, most significant bit first (R154). -/
def spelledByte (bits : List Level) (k : Nat) : Nat :=
  ((List.range 8).map fun j => (bits.getD (8 * k + j) false).toNat * 2 ^ (7 - j)).sum

/-- The part of the block that no host access changes while a transaction is in flight (R65): all but PROGERR. -/
def sameButProgerr (b c : Block) : Prop := { b with progerr := c.progerr } = c

end Sys2Proof.Safety
end

