-- ==== Sys2Proof/Certificates/Slice0/Obligations.lean ====
section
/-! DEFINITION. The statements for the provers. Each docstring names the rules of spec/ it formalises; a docstring that names
an assumption log entry says that the statement rests on the model's own choice there. -/

open Sys2Proof Sys2Proof.Machine Sys2Proof.Safety

/-! ## Reset and the step -/

/-- R43 and R230: a Reset event, at any point of the event order, sets every field of the block at once; STATUS, BITIDX,
TEMP and HUM then read 0, POLL_US 1 and BUDGET 100, the line is released and `busy` is 0. -/
def Obligations.ResetEventSetsEveryField : Prop :=
  ∀ (s : State) (es : List Event), s.cfg.legal = true → s.events = .reset :: es →
    ∃ t : State, step s = .next t ∧
      t.blk.phase = .idle ∧ t.blk.timer = 0 ∧ t.blk.polls = 0 ∧ (∀ k < 5, frameByte t.blk.frame k = 0x00) ∧
      t.blk.bitidx = 0 ∧ t.blk.temp = 0x0000 ∧ t.blk.hum = 0x0000 ∧ t.blk.haveReading = false ∧
      t.blk.errcode = .none ∧ t.blk.failph = .none ∧ t.blk.pollUs = 1 ∧ t.blk.budget = 100 ∧ t.blk.progerr = false ∧
      t.blk.status = 0x0000 ∧ t.blk.readRegister 0x1 = 0x0000 ∧ t.blk.readRegister 0x6 = 0x0000 ∧
      t.blk.lineMode = false ∧ t.blk.lineOut = true ∧ t.blk.busy = false

/-- A Reset event leaves the block of `State.reset` and changes nothing outside the block but for being taken; `State.reset`
is in a build with R7's defaults and has no event in store. That the event leaves the read data, the line level and the build
is the model's choice, assumption log 4, 5 and 8; so are the build (log 8) and the empty store (log 2) of `State.reset`. -/
def Obligations.ResetStateIsResetBlockInStandardBuild : Prop :=
  (∀ (s : State) (es : List Event), s.cfg.legal = true → s.events = .reset :: es →
    step s = .next { s with blk := State.reset.blk, events := es }) ∧
  State.reset.cfg = { tResetUs := 20000, tReleaseUs := 40, tSettleUs := 30 } ∧ State.reset.events = []

/-- R60, R81, R84 and R140: a step takes the next event; a host access runs the operation its word decodes to, a Tick
samples its level and runs the operation that the phase's 4-bit code decodes to. The store of events is the model's
(assumption log 2). -/
def Obligations.StepRunsDecodedOperation : Prop :=
  ∀ (s : State) (es : List Event) (i : Instr), s.cfg.legal = true →
    (∀ w : AccessWord, s.events = .access w :: es → decode (.access w) = .ok i →
      step s = exec i { s with events := es }) ∧
    (∀ level : Level, s.events = .tick level :: es → decode (.phase s.blk.phase.code) = .ok i →
      step s = exec i { s with events := es, line := level })

/-- R140's case table: one Tick performs exactly the rule of the current phase. -/
def Obligations.TickDispatchesOnPhase : Prop :=
  ∀ (s : State) (level : Level) (es : List Event), s.cfg.legal = true → s.events = .tick level :: es →
    ∀ t : State, t = { s with events := es, line := level } →
      (s.blk.phase = .idle → step s = exec .idle t) ∧
      (s.blk.phase = .rstLow → step s = exec .rstLow t) ∧
      (s.blk.phase = .relWait → step s = exec .relWait t) ∧
      (s.blk.phase = .presLow → step s = exec .presLow t) ∧
      (s.blk.phase = .presHigh → step s = exec .presHigh t) ∧
      (s.blk.phase = .presOk → step s = exec .presOk t) ∧
      (s.blk.phase = .bitWaitHigh → step s = exec .bitWaitHigh t) ∧
      (s.blk.phase = .bitSettle → step s = exec .bitSettle t) ∧
      (s.blk.phase = .bitWaitLow → step s = exec .bitWaitLow t) ∧
      (s.blk.phase = .frameComplete → step s = exec .frameComplete t) ∧
      (s.blk.phase = .timedOut → step s = exec .timedOut t)

/-- The model's choice, assumption log 3: with no event in store a Tick comes, whatever level the environment draws. -/
def Obligations.EmptyStoreTicksWithFreeLevel : Prop :=
  ∀ s : State, s.cfg.legal = true → s.events = [] →
    ∃ level : Level, step s = exec s.blk.phase.operation { s with line := level, draws := s.draws + 1 }

/-- R7: "A model must refuse a build parameter outside its legal range", each parameter and each bound. -/
def Obligations.IllegalBuildIsRefused : Prop :=
  ∀ s : State,
    (s.cfg.tResetUs < 18001 ∨ 2 ^ 32 ≤ s.cfg.tResetUs ∨ s.cfg.tReleaseUs < 20 ∨ 40 < s.cfg.tReleaseUs ∨
      s.cfg.tSettleUs < 1 ∨ 2 ^ 16 ≤ s.cfg.tSettleUs) ↔ step s = .refused .illegalBuildParameter

/-! ## Encoding -/

/-- Decoding an encoded well-formed operation gives it back, with every operand at every value. -/
def Obligations.DecodeOfEncodeIsIdentity : Prop :=
  ∀ i : Instr, i.wellFormed = true → decode (encode i) = .ok i

/-- Encoding a decoded operation gives its word back: no bit of an access word or phase code is dropped, and what decodes
is well-formed. For reads and ignored writes, whose DATA R80 and R85 call ignored, this rests on the model's keeping it as
an operand: assumption log 9. -/
def Obligations.EncodeOfDecodeIsIdentity : Prop :=
  ∀ (c : Code) (i : Instr), decode c = .ok i → encode i = c ∧ i.wellFormed = true

/-- R81: the decoder selects the operation of the first row of opcode_table.json that takes the word, CTRL_RSVD being
tried last. -/
def Obligations.DecodeFollowsOpcodeTable : Prop :=
  ∀ w : AccessWord, ∃ r, accessRows.find? (fun r => r.takes w) = some r ∧ r.mnemonic = (decodeAccess w).mnemonic

/-- R81: but for CTRL_RSVD, no access word belongs to two rows of the table. -/
def Obligations.OpcodeRowsAreDisjoint : Prop :=
  (readRows ++ writeRows).Pairwise fun r q => ∀ w : AccessWord, ¬(r.takes w = true ∧ q.takes w = true)

/-- Words written out from R80 and R82, at least one of each family. -/
def Obligations.SampleWordsDecode : Prop :=
  decode (.access 0b000010000000000000000#21) = .ok (.rdStatus 0x0000) ∧
  decode (.access 0b011110000000000000000#21) = .ok (.rdUnmapped8F 7 0x0000) ∧
  decode (.access 0b100000000000000000000#21) = .ok .nop ∧
  decode (.access 0b100000000000000000001#21) = .ok .start ∧
  decode (.access 0b100000000000000000010#21) = .ok .clear ∧
  decode (.access 0b100000000000000000011#21) = .ok (.ctrlRsvd 0x0003) ∧
  decode (.access 0b101010000000000111100#21) = .ok (.wrBudget 0x003C) ∧
  decode (.access 0b110000000000000000001#21) = .ok (.wrUnmapped8F 0 0x0001) ∧
  decode (.phase 0b0111#4) = .ok .bitSettle

/-- R84: each of the 11 codes of R21's table is its phase's and selects that phase's micro-operation, the one the opcode
table names; codes 11 to 15 select nothing. -/
def Obligations.PhaseCodesSelectTheirOperations : Prop :=
  (Phase.idle.code = 0 ∧ decode (.phase 0) = .ok .idle) ∧
  (Phase.rstLow.code = 1 ∧ decode (.phase 1) = .ok .rstLow) ∧
  (Phase.relWait.code = 2 ∧ decode (.phase 2) = .ok .relWait) ∧
  (Phase.presLow.code = 3 ∧ decode (.phase 3) = .ok .presLow) ∧
  (Phase.presHigh.code = 4 ∧ decode (.phase 4) = .ok .presHigh) ∧
  (Phase.presOk.code = 5 ∧ decode (.phase 5) = .ok .presOk) ∧
  (Phase.bitWaitHigh.code = 6 ∧ decode (.phase 6) = .ok .bitWaitHigh) ∧
  (Phase.bitSettle.code = 7 ∧ decode (.phase 7) = .ok .bitSettle) ∧
  (Phase.bitWaitLow.code = 8 ∧ decode (.phase 8) = .ok .bitWaitLow) ∧
  (Phase.frameComplete.code = 9 ∧ decode (.phase 9) = .ok .frameComplete) ∧
  (Phase.timedOut.code = 10 ∧ decode (.phase 10) = .ok .timedOut) ∧
  (∀ p : Phase, decode (.phase p.code) = .ok p.operation) ∧
  (∀ r ∈ phaseRows, ∃ i : Instr, decode (.phase r.2) = .ok i ∧ i.mnemonic = r.1) ∧
  (∀ c : BitVec 4, 11 ≤ c.toNat → decode (.phase c) = .error (.reservedPhaseCode c))

/-! ## Reads -/

/-- R101, R108 and R109: reads of CTRL and of unmapped space return 0x0000, in every state, and change nothing else. -/
def Obligations.ConstantReadsReturnZero : Prop :=
  ∀ (data : Word) (s : State),
    (decodeAccess (accessWord false 0x0 data) = .rdCtrl data ∧ exec (.rdCtrl data) s = .next { s with rdata := 0x0000 }) ∧
    (decodeAccess (accessWord false 0x7 data) = .rdUnmapped7 data ∧
      exec (.rdUnmapped7 data) s = .next { s with rdata := 0x0000 }) ∧
    (∀ addr : Addr, addr.getLsbD 3 = true →
      decodeAccess (accessWord false addr data) = .rdUnmapped8F (addr.extractLsb' 0 3) data) ∧
    (∀ lo : BitVec 3, exec (.rdUnmapped8F lo data) s = .next { s with rdata := 0x0000 })

/-- The pseudocode of R103 to R107: a read returns its register and changes nothing else; BITIDX is zero-extended (R40). -/
def Obligations.RegisterReadsReturnRegisters : Prop :=
  ∀ (data : Word) (s : State),
    exec (.rdTemp data) s = .next { s with rdata := s.blk.temp } ∧
    exec (.rdHum data) s = .next { s with rdata := s.blk.hum } ∧
    exec (.rdPollUs data) s = .next { s with rdata := s.blk.pollUs } ∧
    exec (.rdBudget data) s = .next { s with rdata := s.blk.budget } ∧
    ∃ v : Word, v.toNat = s.blk.bitidx.toNat ∧ exec (.rdBitidx data) s = .next { s with rdata := v }

/-- R36 and R37: STATUS, at address 0x1, is read-only; RD_STATUS returns every field at its bits, computed from the state,
and changes nothing else. The first clauses are the codes of ERRCODE (R30) and FAILPH (R31). -/
def Obligations.StatusReadShowsEveryField : Prop :=
  (ErrCode.none.code = 0 ∧ ErrCode.noPresence.code = 1 ∧ ErrCode.bitTimeout.code = 2 ∧
    ErrCode.checksumMismatch.code = 3) ∧
  (FailPoint.none.code = 0 ∧ FailPoint.presLow.code = 1 ∧ FailPoint.presHigh.code = 2 ∧
    FailPoint.bitWaitHigh.code = 3 ∧ FailPoint.bitWaitLow.code = 4 ∧ FailPoint.checksum.code = 5) ∧
  ∀ (data : Word) (s : State),
    decodeAccess (accessWord false 0x1 data) = .rdStatus data ∧
    decodeAccess (accessWord true 0x1 data) = .wrStatus data ∧ exec (.wrStatus data) s = .next s ∧
    ∃ v : Word, exec (.rdStatus data) s = .next { s with rdata := v } ∧
    (s.blk.busy = true ↔ s.blk.phase ≠ .idle ∧ s.blk.phase ≠ .frameComplete ∧ s.blk.phase ≠ .timedOut) ∧
    v.getLsbD 0 = s.blk.busy ∧
    (v.getLsbD 1 = true ↔ s.blk.phase = .frameComplete ∨ s.blk.phase = .timedOut) ∧
    (v.getLsbD 2 = true ↔ v.getLsbD 1 = true ∧ s.blk.errcode = .none) ∧
    (v.getLsbD 3 = true ↔ s.blk.errcode ≠ .none) ∧
    v.extractLsb' 4 2 = s.blk.errcode.code ∧
    v.getLsbD 6 = s.blk.haveReading ∧
    v.getLsbD 7 = s.blk.progerr ∧
    v.extractLsb' 8 3 = s.blk.busState.code ∧
    v.extractLsb' 11 3 = s.blk.failph.code ∧
    v.extractLsb' 14 2 = 0#2

/-- R38: BusState and its code as functions of the phase and BITIDX, with the argument n. -/
def Obligations.BusStateFollowsPhaseAndBitidx : Prop :=
  ∀ b : Block,
    b.status.extractLsb' 8 3 = b.busState.code ∧
    (b.phase = .idle → b.busState = .idle ∧ b.busState.code = 0) ∧
    (b.phase = .rstLow ∨ b.phase = .relWait → b.busState = .resetAsserted ∧ b.busState.code = 1) ∧
    (b.phase = .presLow ∨ b.phase = .presHigh → b.busState = .presenceWait ∧ b.busState.code = 2) ∧
    (b.phase = .presOk → b.busState = .presenceConfirmed ∧ b.busState.code = 3) ∧
    (b.phase = .bitWaitHigh ∨ b.phase = .bitSettle →
      b.busState = .bitSync b.bitidx.toNat ∧ b.busState.code = 4) ∧
    (b.phase = .bitWaitLow → b.bitidx.toNat % 8 ≠ 0 →
      b.busState = .bitSync (b.bitidx.toNat - 1) ∧ b.busState.code = 4) ∧
    (b.phase = .bitWaitLow → b.bitidx.toNat % 8 = 0 →
      b.busState = .byteAssembled (b.bitidx.toNat / 8 - 1) ∧ b.busState.code = 5) ∧
    (b.phase = .frameComplete → b.busState = .frameComplete ∧ b.busState.code = 6) ∧
    (b.phase = .timedOut → b.busState = .timedOut ∧ b.busState.code = 7)

/-- R67, R69 and R85 over the whole register space: every read word, whatever its DATA, returns what its address names
and changes no other part of the machine. -/
def Obligations.EveryReadReturnsItsRegister : Prop :=
  ∀ (addr : Addr) (data : Word) (s : State),
    exec (decodeAccess (accessWord false addr data)) s = .next { s with rdata := s.blk.readRegister addr } ∧
    (7 ≤ addr.toNat ∨ addr = 0 → s.blk.readRegister addr = 0x0000)

/-! ## Commands and writes -/

/-- R110: NOP has no effect, in any state. -/
def Obligations.NopChangesNothing : Prop :=
  decodeAccess 0x100000#21 = .nop ∧ ∀ s : State, exec .nop s = .next s

/-- R111: START begins a transaction when not busy; while busy it sets PROGERR and nothing else. -/
def Obligations.StartBeginsOrIsRejected : Prop :=
  decodeAccess 0x100001#21 = .start ∧ ∀ s : State,
    (s.blk.busy = false →
      exec .start s = .next { s with blk :=
        { s.blk with errcode := .none, failph := .none, bitidx := 0, frame := Frame.zero, polls := 0,
                     timer := BitVec.ofNat 32 s.cfg.tResetUs, phase := .rstLow } }) ∧
    (s.blk.busy = true → exec .start s = .next { s with blk := { s.blk with progerr := true } })

/-- R61.3 with R37: a STATUS read right after an accepted START shows BUSY = 1 and STATE = ResetAsserted, PROGERR and HAVE
as they were, and nothing else. (R102's corner case leaves the BUSY bit out of its formula: assumption log 16.) -/
def Obligations.StatusAfterStartShowsBusy : Prop :=
  ∀ (s t : State) (data : Word), s.blk.busy = false → exec .start s = .next t →
    exec (.rdStatus data) t = .next { t with rdata :=
      0x0101#16 ||| (if s.blk.progerr then 0x0080#16 else 0#16) ||| (if s.blk.haveReading then 0x0040#16 else 0#16) }

/-- R112: CLEAR clears PROGERR always, and when not busy returns to IDLE with the outcome cleared; it never cancels a
transaction. -/
def Obligations.ClearReturnsToIdle : Prop :=
  decodeAccess 0x100002#21 = .clear ∧ ∀ s : State,
    (s.blk.busy = false →
      exec .clear s = .next { s with blk :=
        { s.blk with progerr := false, phase := .idle, errcode := .none, failph := .none, bitidx := 0 } }) ∧
    (s.blk.busy = true → exec .clear s = .next { s with blk := { s.blk with progerr := false } })

/-- R113: the decoder selects CTRL_RSVD exactly for the other values of a CTRL write, and it sets PROGERR and nothing else,
busy or not. -/
def Obligations.ReservedCommandSetsProgerr : Prop :=
  ∀ (data : Word) (s : State),
    (decodeAccess (accessWord true 0x0 data) = .ctrlRsvd data ↔ data ≠ 0x0000 ∧ data ≠ 0x0001 ∧ data ≠ 0x0002) ∧
    exec (.ctrlRsvd data) s = .next { s with blk := { s.blk with progerr := true } }

/-- R114, R115, R116, R119, R120 and R121: writes to read-only registers and to unmapped space change nothing. -/
def Obligations.ReadOnlyAndUnmappedWritesAreIgnored : Prop :=
  ∀ (data : Word) (s : State),
    (decodeAccess (accessWord true 0x1 data) = .wrStatus data ∧ exec (.wrStatus data) s = .next s) ∧
    (decodeAccess (accessWord true 0x2 data) = .wrTemp data ∧ exec (.wrTemp data) s = .next s) ∧
    (decodeAccess (accessWord true 0x3 data) = .wrHum data ∧ exec (.wrHum data) s = .next s) ∧
    (decodeAccess (accessWord true 0x6 data) = .wrBitidx data ∧ exec (.wrBitidx data) s = .next s) ∧
    (decodeAccess (accessWord true 0x7 data) = .wrUnmapped7 data ∧ exec (.wrUnmapped7 data) s = .next s) ∧
    (∀ addr : Addr, addr.getLsbD 3 = true →
      decodeAccess (accessWord true addr data) = .wrUnmapped8F (addr.extractLsb' 0 3) data) ∧
    (∀ lo : BitVec 3, exec (.wrUnmapped8F lo data) s = .next s)

/-- The pseudocode of R117 with R32: POLL_US takes the written value when not busy, 0 stored as 1; while busy the write
sets PROGERR and nothing else. -/
def Obligations.PollUsWriteIsLegalisedOrRejected : Prop :=
  ∀ (data : Word) (s : State),
    decodeAccess (accessWord true 0x4 data) = .wrPollUs data ∧
    (s.blk.busy = false → data = 0 → exec (.wrPollUs data) s = .next { s with blk := { s.blk with pollUs := 1 } }) ∧
    (s.blk.busy = false → data ≠ 0 →
      exec (.wrPollUs data) s = .next { s with blk := { s.blk with pollUs := data } }) ∧
    (s.blk.busy = true → exec (.wrPollUs data) s = .next { s with blk := { s.blk with progerr := true } })

/-- The pseudocode of R118 with R33: as for POLL_US. -/
def Obligations.BudgetWriteIsLegalisedOrRejected : Prop :=
  ∀ (data : Word) (s : State),
    decodeAccess (accessWord true 0x5 data) = .wrBudget data ∧
    (s.blk.busy = false → data = 0 → exec (.wrBudget data) s = .next { s with blk := { s.blk with budget := 1 } }) ∧
    (s.blk.busy = false → data ≠ 0 →
      exec (.wrBudget data) s = .next { s with blk := { s.blk with budget := data } }) ∧
    (s.blk.busy = true → exec (.wrBudget data) s = .next { s with blk := { s.blk with progerr := true } })

/-- R87 and R232: SET_TIMING on a block that is not busy stores both values, legalised, and nothing else. -/
def Obligations.SetTimingStoresBoth : Prop :=
  ∀ (p b : Word) (s : State), s.cfg.legal = true → s.blk.busy = false → p ≠ 0 → b ≠ 0 →
    performAll ((setTiming p b).map AsmLine.event) s =
      .next { s with blk := { s.blk with pollUs := p, budget := b } } ∧
    performAll ((setTiming p b).reverse.map AsmLine.event) s =
      .next { s with blk := { s.blk with pollUs := p, budget := b } }

/-! ## The sequencer, one Tick at a time -/

/-- R143, R152 and R153: in IDLE and in both terminal phases a Tick has no effect, and any number of Ticks, of any levels,
leaves the block as it is. -/
def Obligations.RestingPhasesIgnoreTicks : Prop :=
  (∀ s : State, exec .idle s = .next s ∧ exec .frameComplete s = .next s ∧ exec .timedOut s = .next s) ∧
  (∀ (s : State) (levels : List Level), s.cfg.legal = true →
    s.blk.phase = .idle ∨ s.blk.phase = .frameComplete ∨ s.blk.phase = .timedOut →
    ∃ t : State, runs levels.length (withTicks levels s) t ∧ t.blk = s.blk)

/-- R144 and R145 with R141, pseudocode: the timed phases count down and on their last tick enter the next phase; the
release wait is entered with T_RELEASE_US − 1. -/
def Obligations.ResetAndReleaseTicks : Prop :=
  ∀ s : State,
    (s.blk.timer = 1 →
      exec .rstLow s = .next { s with blk :=
        { s.blk with phase := .relWait, polls := 0, timer := BitVec.ofNat 32 (s.cfg.tReleaseUs - 1) } }) ∧
    (s.blk.timer ≠ 1 → exec .rstLow s = .next { s with blk := { s.blk with timer := s.blk.timer - 1 } }) ∧
    (s.blk.timer = 1 →
      exec .relWait s = .next { s with blk := { s.blk with phase := .presLow, polls := 0, timer := 0 } }) ∧
    (s.blk.timer ≠ 1 → exec .relWait s = .next { s with blk := { s.blk with timer := s.blk.timer - 1 } })

/-- R148, pseudocode: PRES_OK lasts one tick and enters BIT_WAIT_HIGH, whatever the line. -/
def Obligations.PresenceConfirmedLastsOneTick : Prop :=
  ∀ s : State, exec .presOk s = .next { s with blk := { s.blk with phase := .bitWaitHigh, polls := 0, timer := 0 } }

/-- R142, first branch, in all four wait phases: between samples the timer counts down and nothing else changes. -/
def Obligations.WaitPhasesCountDownBetweenSamples : Prop :=
  ∀ q ∈ waitRows, ∀ s : State, s.blk.timer ≠ 0 →
    exec q.op s = .next { s with blk := { s.blk with timer := s.blk.timer - 1 } }

/-- R142, last branch, in all four wait phases: a missed sample within the budget is counted and the next one comes
POLL_US ticks later. R39.6 rules out the POLL_US of 0 that is excluded here. -/
def Obligations.WaitPhasesCountMissedSamples : Prop :=
  ∀ q ∈ waitRows, ∀ s : State, s.blk.timer = 0 → s.line ≠ q.target → s.blk.polls.toNat + 1 ≠ s.blk.budget.toNat →
    s.blk.pollUs ≠ 0 →
    exec q.op s = .next { s with blk :=
      { s.blk with polls := s.blk.polls + 1, timer := BitVec.ofNat 32 (s.blk.pollUs.toNat - 1) } }

/-- R142, third branch, with R201 and R202: a missed sample that uses the budget up ends the transaction with the phase's
error, in TIMED_OUT, with the frame zeroed; everything else stays, BITIDX, TEMP, HUM and HAVE among it. -/
def Obligations.WaitPhasesFailOnUsedBudget : Prop :=
  ∀ q ∈ waitRows, ∀ s : State, s.blk.timer = 0 → s.line ≠ q.target → s.blk.polls.toNat + 1 = s.blk.budget.toNat →
    exec q.op s = .next { s with blk :=
      { s.blk with errcode := q.code, failph := q.fp, frame := Frame.zero, timer := 0, polls := 0,
                   phase := .timedOut } }

/-- R142, second branch, with R146, R147, R149 and R151: the expected level enters the next phase, in the same tick. -/
def Obligations.WaitPhasesEnterNextOnTarget : Prop :=
  ∀ s : State, s.blk.timer = 0 →
    (s.line = true →
      exec .presLow s = .next { s with blk := { s.blk with phase := .presHigh, polls := 0, timer := 0 } }) ∧
    (s.line = false →
      exec .presHigh s = .next { s with blk := { s.blk with phase := .presOk, polls := 0, timer := 0 } }) ∧
    (s.line = true →
      exec .bitWaitHigh s = .next { s with blk :=
        { s.blk with phase := .bitSettle, polls := 0, timer := BitVec.ofNat 32 s.cfg.tSettleUs } }) ∧
    (s.line = false → s.blk.bitidx ≠ 40 →
      exec .bitWaitLow s = .next { s with blk := { s.blk with phase := .bitWaitHigh, polls := 0, timer := 0 } })

/-- R150, pseudocode: on the last tick the line goes into bit 0 of byte BITIDX div 8, the other bytes stay, BITIDX grows
by one and BIT_WAIT_LOW follows; on the other ticks the timer counts down. -/
def Obligations.BitSettleSamplesOnLastTick : Prop :=
  ∀ s : State,
    (s.blk.timer ≠ 1 → exec .bitSettle s = .next { s with blk := { s.blk with timer := s.blk.timer - 1 } }) ∧
    (s.blk.timer = 1 → s.blk.bitidx.toNat < 40 → ∃ f : Frame,
      exec .bitSettle s = .next { s with blk :=
        { s.blk with frame := f, bitidx := s.blk.bitidx + 1, phase := .bitWaitLow, polls := 0, timer := 0 } } ∧
      ∀ k < 5, (frameByte f k).toNat =
        if k = s.blk.bitidx.toNat / 8 then (2 * (frameByte s.blk.frame k).toNat + s.line.toNat) % 256
        else (frameByte s.blk.frame k).toNat)

/-- R184 and R185 for a good frame: the low after the 40th bit commits the reading, TEMP and HUM together, sets HAVE, zeroes
the frame and ends in FRAME_COMPLETE with no error. -/
def Obligations.GoodFrameIsCommitted : Prop :=
  ∀ s : State, s.blk.timer = 0 → s.line = false → s.blk.bitidx = 40 →
    ((frameByte s.blk.frame 0).toNat + (frameByte s.blk.frame 1).toNat + (frameByte s.blk.frame 2).toNat +
      (frameByte s.blk.frame 3).toNat) % 256 = (frameByte s.blk.frame 4).toNat →
    ∃ temp hum : Word,
      temp.toNat = (frameByte s.blk.frame 2).toNat * 10 + (frameByte s.blk.frame 3).toNat ∧
      hum.toNat = (frameByte s.blk.frame 0).toNat * 10 + (frameByte s.blk.frame 1).toNat ∧
      exec .bitWaitLow s = .next { s with blk :=
        { s.blk with temp := temp, hum := hum, haveReading := true, errcode := .none, failph := .none,
                     frame := Frame.zero, timer := 0, polls := 0, phase := .frameComplete } }

/-- R184 with R201 for a bad frame: ChecksumMismatch at point 5, in FRAME_COMPLETE, with the frame zeroed and the last
reading untouched. -/
def Obligations.BadFrameIsDiscarded : Prop :=
  ∀ s : State, s.blk.timer = 0 → s.line = false → s.blk.bitidx = 40 →
    ((frameByte s.blk.frame 0).toNat + (frameByte s.blk.frame 1).toNat + (frameByte s.blk.frame 2).toNat +
      (frameByte s.blk.frame 3).toNat) % 256 ≠ (frameByte s.blk.frame 4).toNat →
    exec .bitWaitLow s = .next { s with blk :=
      { s.blk with errcode := .checksumMismatch, failph := .checksum, frame := Frame.zero, timer := 0, polls := 0,
                   phase := .frameComplete } }

/-- The model's guard, assumption log 7: no operation is refused, and the only fault is BIT_SETTLE sampling a bit into a
frame byte that does not exist. -/
def Obligations.OnlySampleBeyondFrameStops : Prop :=
  ∀ (i : Instr) (s : State),
    (∀ r : Refusal, exec i s ≠ .refused r) ∧
    ((∃ e : Fault, exec i s = .fault e) ↔ i = .bitSettle ∧ s.blk.timer = 1 ∧ 40 ≤ s.blk.bitidx.toNat)

/-! ## Checksum and decoder -/

/-- R180 and R181: exactly one checksum byte of the 256 is accepted, the sum of the four data bytes mod 256. -/
def Obligations.ExactlyOneChecksumByteIsAccepted : Prop :=
  ∀ a b c d : Byte,
    (∃ e : Byte, e.toNat = (a.toNat + b.toNat + c.toNat + d.toNat) % 256 ∧
      ∀ x : Byte, ({ humidityHigh := a, humidityLow := b, temperatureHigh := c, temperatureLow := d,
                     checksum := x } : Frame).checksumOk = true ↔ x = e)

/-- R182 and R183: the decoder's formulas, their range 0..2805, that storing them in 16 bits loses nothing and leaves the
sign bit 0, and that two byte pairs can decode alike. -/
def Obligations.DecoderFormulaAndRange : Prop :=
  (∀ f : Frame,
    f.decodeTemp = (frameByte f 2).toNat * 10 + (frameByte f 3).toNat ∧
    f.decodeHum = (frameByte f 0).toNat * 10 + (frameByte f 1).toNat ∧
    f.decodeTemp ≤ 2805 ∧ f.decodeHum ≤ 2805 ∧
    (BitVec.ofNat 16 f.decodeTemp).toNat = f.decodeTemp ∧ (BitVec.ofNat 16 f.decodeHum).toNat = f.decodeHum ∧
    (BitVec.ofNat 16 f.decodeTemp).getLsbD 15 = false) ∧
  (∃ f : Frame, f.decodeTemp = 2805 ∧ f.decodeHum = 2805) ∧
  (∃ f g : Frame, frameByte f 2 ≠ frameByte g 2 ∧ frameByte f 3 ≠ frameByte g 3 ∧ f.decodeTemp = g.decodeTemp)

/-! ## What no operation does -/

/-- R140 and R65: a micro-operation changes nothing of the host's: not POLL_US, BUDGET or PROGERR, nor the build, the read
data or the events to come. -/
def Obligations.EngineLeavesHostSettings : Prop :=
  ∀ (i : Instr) (s t : State), i.isAccess = false → exec i s = .next t →
    t.blk.pollUs = s.blk.pollUs ∧ t.blk.budget = s.blk.budget ∧ t.blk.progerr = s.blk.progerr ∧
    t.cfg = s.cfg ∧ t.line = s.line ∧ t.rdata = s.rdata ∧ t.events = s.events ∧ t.draws = s.draws

/-- R65 and R100: while a transaction is in flight, every one of the 2^21 host accesses leaves the whole block as it is but
for PROGERR, and always completes. -/
def Obligations.HostAccessNeverDisturbsTransaction : Prop :=
  ∀ (w : AccessWord) (s : State), s.blk.busy = true →
    ∃ t : State, exec (decodeAccess w) s = .next t ∧ sameButProgerr t.blk s.blk ∧
      t.cfg = s.cfg ∧ t.line = s.line ∧ t.events = s.events ∧ t.draws = s.draws

/-- R65: a host access between two Ticks of a transaction makes no difference to the engine: after the next Tick the block
is the same with and without it, but for PROGERR. -/
def Obligations.HostAccessBeforeTickLeavesEngineAlone : Prop :=
  ∀ (w : AccessWord) (level : Level) (s t u : State), s.blk.busy = true →
    perform (.access w) s = .next t → perform (.tick level) s = .next u →
    ∃ v : State, perform (.tick level) t = .next v ∧ sameButProgerr v.blk u.blk

/-- R61.5, R185 and R186: TEMP, HUM and HAVE change only in the operation that completes a frame of 40 bits with a good
checksum; every other outcome keeps the last reading (R239). -/
def Obligations.OnlyGoodFrameChangesReading : Prop :=
  ∀ (i : Instr) (s t : State), exec i s = .next t →
    (t.blk.temp = s.blk.temp ∧ t.blk.hum = s.blk.hum ∧ t.blk.haveReading = s.blk.haveReading) ∨
    (i = .bitWaitLow ∧ s.blk.timer = 0 ∧ s.line = false ∧ s.blk.bitidx = 40 ∧ s.blk.frame.checksumOk = true ∧
      t.blk.haveReading = true ∧ t.blk.phase = .frameComplete)

/-- R34: PROGERR, STATUS bit 7, is set by a START while busy, a reserved CTRL value, or a timing write while busy, and by
nothing else; setting it changes no other state; among the operations only CLEAR clears it, and so does Reset. -/
def Obligations.ProgerrIsSetAndClearedByTheHost : Prop :=
  (∀ (i : Instr) (s t : State), exec i s = .next t →
    ((i = .start ∧ s.blk.busy = true) ∨ (∃ d, i = .ctrlRsvd d) ∨
        (∃ d, (i = .wrPollUs d ∨ i = .wrBudget d) ∧ s.blk.busy = true) →
      t = { s with blk := { s.blk with progerr := true } }) ∧
    (s.blk.progerr = false → t.blk.progerr = true →
      (i = .start ∧ s.blk.busy = true) ∨ (∃ d, i = .ctrlRsvd d) ∨
        (∃ d, (i = .wrPollUs d ∨ i = .wrBudget d) ∧ s.blk.busy = true)) ∧
    (i = .clear → t.blk.progerr = false) ∧
    (s.blk.progerr = true → t.blk.progerr = false → i = .clear)) ∧
  (∀ s : State, s.cfg.legal = true → ∃ t : State, perform .reset s = .next t ∧ t.blk.progerr = false) ∧
  (∀ b : Block, b.status.getLsbD 7 = b.progerr)

/-- R42 and R65: among host accesses, only a START or a CLEAR on a block that is not busy moves the sequencer; and only a
write of its own, on such a block, changes POLL_US or BUDGET. -/
def Obligations.OnlyStartAndClearMoveTheSequencer : Prop :=
  ∀ (i : Instr) (s t : State), exec i s = .next t → i.isAccess = true →
    (t.blk.phase ≠ s.blk.phase ∨ t.blk.timer ≠ s.blk.timer ∨ t.blk.polls ≠ s.blk.polls ∨ t.blk.frame ≠ s.blk.frame ∨
      t.blk.bitidx ≠ s.blk.bitidx ∨ t.blk.errcode ≠ s.blk.errcode ∨ t.blk.failph ≠ s.blk.failph →
      s.blk.busy = false ∧ (i = .start ∨ i = .clear)) ∧
    (t.blk.pollUs ≠ s.blk.pollUs → s.blk.busy = false ∧ ∃ d, i = .wrPollUs d) ∧
    (t.blk.budget ≠ s.blk.budget → s.blk.busy = false ∧ ∃ d, i = .wrBudget d)

/-- R41: the line is driven, low, exactly in RST_LOW; START drives it from its own event on, and the tick that ends RST_LOW
releases it. -/
def Obligations.LineIsDrivenOnlyInResetPulse : Prop :=
  (∀ b : Block, (b.phase = .rstLow → b.lineMode = true ∧ b.lineOut = false) ∧
    (b.phase ≠ .rstLow → b.lineMode = false ∧ b.lineOut = true)) ∧
  (∀ s t : State, s.blk.busy = false → exec .start s = .next t → t.blk.lineMode = true ∧ t.blk.lineOut = false) ∧
  (∀ s t : State, s.blk.timer = 1 → exec .rstLow s = .next t → t.blk.lineMode = false ∧ t.blk.lineOut = true)

/-- R157: a Tick that does not sample ignores the line: whatever the level, the block afterwards is the same. -/
def Obligations.LineIsIgnoredOffSampleTicks : Prop :=
  ∀ (s t u : State) (l m : Level),
    ¬((s.blk.phase = .presLow ∨ s.blk.phase = .presHigh ∨ s.blk.phase = .bitWaitHigh ∨ s.blk.phase = .bitWaitLow) ∧
        s.blk.timer = 0) →
    ¬(s.blk.phase = .bitSettle ∧ s.blk.timer = 1) →
    perform (.tick l) s = .next t → perform (.tick m) s = .next u → t.blk = u.blk

/-! ## The invariant -/

/-- The invariant holds of the reset state. -/
def Obligations.InvHoldsAtReset : Prop := Inv State.reset

/-- Every step from a state that meets the invariant gives a state that meets it: R39 and the ranges of R23 to R29 are kept
by every event, host accesses, Ticks of any level and Resets alike. -/
def Obligations.StepKeepsInv : Prop :=
  ∀ s t : State, Inv s → step s = .next t → Inv t

/-- From a state that meets the invariant the machine always goes on: it never faults and is never refused (R200: no error
is fatal). -/
def Obligations.InvStatesAlwaysStep : Prop :=
  ∀ s : State, Inv s → ∃ t : State, step s = .next t

/-- R39: every state that a run from reset reaches, in any legal build and under any events in any order, meets its seven
items. -/
def Obligations.ReachableStatesMeetR39 : Prop :=
  ∀ (cfg : Config.Build) (es : List Event) (n : Nat) (s : State), cfg.legal = true →
    runs n { State.reset with cfg := cfg, events := es } s → ReachableFacts s.blk

/-- R202 and R204: a transaction ends in exactly one outcome of the table, with its FAILPH, its BITIDX and its end phase, in
the phase that raises it; the line is released and the frame zero. -/
def Obligations.TransactionsEndInOneOutcome : Prop :=
  ∀ s t : State, Inv s → s.blk.busy = true → s.events.head? ≠ some .reset → step s = .next t → t.blk.busy = false →
    t.blk.frame = Frame.zero ∧ t.blk.lineMode = false ∧ t.blk.bitidx = s.blk.bitidx ∧
    ((t.blk.phase = .frameComplete ∧ t.blk.errcode = .none ∧ t.blk.failph = .none ∧ s.blk.phase = .bitWaitLow ∧
        t.blk.bitidx = 40 ∧ s.blk.frame.checksumOk = true) ∨
     (t.blk.phase = .frameComplete ∧ t.blk.errcode = .checksumMismatch ∧ t.blk.failph = .checksum ∧
        s.blk.phase = .bitWaitLow ∧ t.blk.bitidx = 40 ∧ s.blk.frame.checksumOk = false) ∨
     (t.blk.phase = .timedOut ∧ t.blk.errcode = .noPresence ∧ t.blk.failph = .presLow ∧ s.blk.phase = .presLow ∧
        t.blk.bitidx = 0) ∨
     (t.blk.phase = .timedOut ∧ t.blk.errcode = .noPresence ∧ t.blk.failph = .presHigh ∧ s.blk.phase = .presHigh ∧
        t.blk.bitidx = 0) ∨
     (t.blk.phase = .timedOut ∧ t.blk.errcode = .bitTimeout ∧ t.blk.failph = .bitWaitHigh ∧
        s.blk.phase = .bitWaitHigh ∧ t.blk.bitidx.toNat ≤ 39) ∨
     (t.blk.phase = .timedOut ∧ t.blk.errcode = .bitTimeout ∧ t.blk.failph = .bitWaitLow ∧
        s.blk.phase = .bitWaitLow ∧ 1 ≤ t.blk.bitidx.toNat ∧ t.blk.bitidx.toNat ≤ 40))

/-! ## Runs of Ticks -/

/-- R142 (facts 1 and 2): a wait phase just entered samples the line on its ticks 0, P, 2P, ... and on no other; as long as
those samples miss, it stays in the phase for (B−1)·P ticks and counts them. -/
def Obligations.WaitPhasesSampleEveryPTicks : Prop :=
  ∀ q ∈ waitRows, ∀ (s : State) (levels : List Level), s.cfg.legal = true → s.blk.phase = q.phase → s.blk.timer = 0 →
    s.blk.polls = 0 → 1 ≤ s.blk.pollUs.toNat → 1 ≤ s.blk.budget.toNat →
    levels.length ≤ (s.blk.budget.toNat - 1) * s.blk.pollUs.toNat →
    (∀ j < levels.length, s.blk.pollUs.toNat ∣ j → levels[j]? = some (!q.target)) →
    ∃ t : State, runs levels.length (withTicks levels s) t ∧ t.blk.phase = q.phase ∧
      (t.blk.timer = 0 ↔ s.blk.pollUs.toNat ∣ levels.length) ∧
      t.blk.polls.toNat = (levels.length + s.blk.pollUs.toNat - 1) / s.blk.pollUs.toNat

/-- R142 (facts 3 and 4): when all B samples miss, a wait phase just entered fails after exactly W = (B−1)·P + 1 ticks, with
its own code and point: after each smaller number of those ticks it is still in its phase. -/
def Obligations.WaitPhasesTimeOutAfterW : Prop :=
  ∀ q ∈ waitRows, ∀ (s : State) (levels : List Level), s.cfg.legal = true → s.blk.phase = q.phase → s.blk.timer = 0 →
    s.blk.polls = 0 → 1 ≤ s.blk.pollUs.toNat → 1 ≤ s.blk.budget.toNat →
    levels.length = (s.blk.budget.toNat - 1) * s.blk.pollUs.toNat + 1 →
    (∀ j < levels.length, s.blk.pollUs.toNat ∣ j → levels[j]? = some (!q.target)) →
    (∀ n < levels.length, ∃ t : State, runs n (withTicks levels s) t ∧ t.blk.phase = q.phase) ∧
    ∃ t : State, runs levels.length (withTicks levels s) t ∧ t.blk.phase = .timedOut ∧ t.blk.errcode = q.code ∧
      t.blk.failph = q.fp ∧ t.blk.bitidx = s.blk.bitidx

/-- R144, R145 and R244: from an accepted START the line is driven for exactly T_RESET_US ticks, then released for
T_RELEASE_US − 1 ticks, whatever its level, and the first presence sample falls exactly T_RELEASE_US ticks after the
release tick. -/
def Obligations.ResetPulseAndReleaseLastExactly : Prop :=
  ∀ (s s0 : State) (levels : List Level) (n : Nat), s.cfg.legal = true → s.blk.busy = false → exec .start s = .next s0 →
    n < s.cfg.tResetUs + s.cfg.tReleaseUs →
    ∃ t : State, runs n (withTicks levels s0) t ∧
      (n < s.cfg.tResetUs → t.blk.phase = .rstLow ∧ t.blk.timer.toNat = s.cfg.tResetUs - n) ∧
      (s.cfg.tResetUs ≤ n → n < s.cfg.tResetUs + s.cfg.tReleaseUs - 1 →
        t.blk.phase = .relWait ∧ t.blk.timer.toNat = s.cfg.tResetUs + s.cfg.tReleaseUs - 1 - n) ∧
      (n = s.cfg.tResetUs + s.cfg.tReleaseUs - 1 → t.blk.phase = .presLow ∧ t.blk.timer = 0)

/-- R150 with R243: the settle window lasts exactly T_SETTLE_US ticks and the level on its last tick is the bit, whatever the
levels before it. -/
def Obligations.SettleWindowTakesItsLastLevel : Prop :=
  ∀ (s : State) (levels : List Level) (bit : Level), s.cfg.legal = true → s.blk.phase = .bitSettle →
    s.blk.timer.toNat = s.cfg.tSettleUs → s.blk.bitidx.toNat < 40 →
    levels.length + 1 = s.cfg.tSettleUs →
    ∃ t : State, runs s.cfg.tSettleUs (withTicks (levels ++ [bit]) s) t ∧ t.blk.phase = .bitWaitLow ∧
      t.blk.bitidx = s.blk.bitidx + 1 ∧
      (frameByte t.blk.frame (s.blk.bitidx.toNat / 8)).toNat =
        (2 * (frameByte s.blk.frame (s.blk.bitidx.toNat / 8)).toNat + bit.toNat) % 256

/-- The measure behind R156: each Tick of a transaction takes at least one off the ticks it may still take. -/
def Obligations.EachTickShortensTheTransaction : Prop :=
  ∀ (s t : State) (level : Level), Inv s → s.blk.busy = true → perform (.tick level) s = .next t →
    ticksLeft t.cfg t.blk < ticksLeft s.cfg s.blk

/-- R156, upper bound: from an accepted START the block reaches a terminal phase within T_max Ticks, whatever levels the
line takes. -/
def Obligations.TransactionsEndWithinTmax : Prop :=
  ∀ (s s0 : State) (levels : List Level), Inv s → s.blk.busy = false → exec .start s = .next s0 →
    levels.length = tMax s0.cfg s0.blk →
    ∃ n ≤ levels.length, ∃ t : State, runs n (withTicks levels s0) t ∧
      (t.blk.phase = .frameComplete ∨ t.blk.phase = .timedOut)

/-- R156, lower bounds: no transaction ends before Tick T_RESET_US + T_RELEASE_US after START, and none reaches
FRAME_COMPLETE before Tick T_min_ok, whatever levels the line takes. -/
def Obligations.TransactionsTakeAtLeastTmin : Prop :=
  ∀ (s s0 t : State) (levels : List Level) (n : Nat), Inv s → s.blk.busy = false → exec .start s = .next s0 →
    n ≤ levels.length → runs n (withTicks levels s0) t →
    (n < s0.cfg.tResetUs + s0.cfg.tReleaseUs → t.blk.busy = true) ∧
    (n < tMinOk s0.cfg → t.blk.phase ≠ .frameComplete)

/-- R154: from PRES_OK, where no bit has been sampled yet, to the low that completes the frame, byte k spells the bits
sampled with indexes 8k to 8k+7, most significant bit first: the first bit received is bit 7 of humidity_high, the 40th is
bit 0 of the checksum. -/
def Obligations.CompleteFrameSpellsSampledBits : Prop :=
  ∀ (s t : State) (levels : List Level), Inv s → s.blk.phase = .presOk → runs levels.length (withTicks levels s) t →
    t.blk.phase = .bitWaitLow → t.blk.bitidx = 40 →
    (sampledBits levels s).length = 40 ∧
    ∀ k < 5, (frameByte t.blk.frame k).toNat = spelledByte (sampledBits levels s) k
end

