-- ==== Sys2Proof/Laws/Decode.lean ====
section
/-! SUPPORT. The access word's fields are read back as they were written (R80), and every word is its fields. -/

namespace Sys2Proof

/-- The access word as a number: RW weighs 2^20, ADDR 2^16, DATA 1. -/
theorem accessWord_toNat (rw : Bool) (addr : Addr) (data : Word) :
    (accessWord rw addr data).toNat = rw.toNat * 2 ^ 20 + addr.toNat * 2 ^ 16 + data.toNat := by
  have happ : (accessWord rw addr data).toNat = ((BitVec.ofBool rw ++ addr).toNat <<< 16) ||| data.toNat :=
    BitVec.toNat_append (BitVec.ofBool rw ++ addr) data
  have hin : (BitVec.ofBool rw ++ addr).toNat = ((BitVec.ofBool rw).toNat <<< 4) ||| addr.toNat :=
    BitVec.toNat_append (BitVec.ofBool rw) addr
  have hrw : (BitVec.ofBool rw).toNat = rw.toNat := by cases rw <;> rfl
  rw [happ, hin, hrw, ← Nat.shiftLeft_add_eq_or_of_lt addr.isLt, ← Nat.shiftLeft_add_eq_or_of_lt data.isLt,
    Nat.shiftLeft_eq, Nat.shiftLeft_eq]
  omega

/-- ADDR as a number. -/
theorem accessAddr_toNat (w : AccessWord) : (accessAddr w).toNat = w.toNat / 2 ^ 16 % 2 ^ 4 := by
  simp [accessAddr, Nat.shiftRight_eq_div_pow]

/-- DATA as a number. -/
theorem accessData_toNat (w : AccessWord) : (accessData w).toNat = w.toNat % 2 ^ 16 := by
  simp [accessData]

/-- RW as a number. -/
theorem accessRw_toNat (w : AccessWord) : (accessRw w).toNat = w.toNat / 2 ^ 20 := by
  have h := w.isLt
  have hb : accessRw w = decide (w.toNat / 2 ^ 20 % 2 = 1) := by
    simp [accessRw, BitVec.getLsbD, Nat.testBit_eq_decide_div_mod_eq]
  have h2 : w.toNat / 2 ^ 20 = 0 ∨ w.toNat / 2 ^ 20 = 1 := by omega
  rcases h2 with h2 | h2 <;> rw [hb, h2] <;> rfl

theorem accessAddr_accessWord (rw : Bool) (addr : Addr) (data : Word) :
    accessAddr (accessWord rw addr data) = addr := by
  apply BitVec.eq_of_toNat_eq
  rw [accessAddr_toNat, accessWord_toNat]
  have := addr.isLt
  have := data.isLt
  omega

theorem accessData_accessWord (rw : Bool) (addr : Addr) (data : Word) :
    accessData (accessWord rw addr data) = data := by
  apply BitVec.eq_of_toNat_eq
  rw [accessData_toNat, accessWord_toNat]
  have := data.isLt
  omega

theorem accessRw_accessWord (rw : Bool) (addr : Addr) (data : Word) : accessRw (accessWord rw addr data) = rw := by
  have h := accessRw_toNat (accessWord rw addr data)
  rw [accessWord_toNat] at h
  have := addr.isLt
  have := data.isLt
  cases rw <;> cases hw : accessRw (accessWord _ addr data) <;> simp [hw] at h ⊢ <;> omega

theorem accessWord_fields (w : AccessWord) : accessWord (accessRw w) (accessAddr w) (accessData w) = w := by
  apply BitVec.eq_of_toNat_eq
  rw [accessWord_toNat, accessRw_toNat, accessAddr_toNat, accessData_toNat]
  omega

/-- The decoder on a word given by its fields: reads by address, writes by address (R81). -/
theorem decodeAccess_accessWord (rw : Bool) (addr : Addr) (data : Word) :
    decodeAccess (accessWord rw addr data) = if rw then decodeWrite addr data else decodeRead addr data := by
  simp [decodeAccess, accessRw_accessWord, accessAddr_accessWord, accessData_accessWord]

/-- Bit i of an access word. -/
theorem accessWord_getLsbD (rw : Bool) (addr : Addr) (data : Word) (i : Nat) :
    (accessWord rw addr data).getLsbD i =
      if i < 16 then data.getLsbD i else if i < 20 then addr.getLsbD (i - 16) else decide (i = 20) && rw := by
  have happ : (accessWord rw addr data).getLsbD i =
      if i < 16 then data.getLsbD i else (BitVec.ofBool rw ++ addr).getLsbD (i - 16) :=
    BitVec.getLsbD_append
  have hin : (BitVec.ofBool rw ++ addr).getLsbD (i - 16) =
      if i - 16 < 4 then addr.getLsbD (i - 16) else (BitVec.ofBool rw).getLsbD (i - 16 - 4) :=
    BitVec.getLsbD_append
  rw [happ, hin]
  by_cases h16 : i < 16
  · simp [h16]
  · by_cases h20 : i < 20
    · have : i - 16 < 4 := by omega
      simp [h16, h20, this]
    · have h4 : ¬ i - 16 < 4 := by omega
      have he : (i - 16 - 4 = 0) = (i = 20) := propext (by omega)
      simp [h16, h20, h4, he]

/-- A mask that keeps RW and ADDR clears DATA. -/
theorem accessWord_and_fieldMask (rw : Bool) (addr : Addr) (data : Word) :
    accessWord rw addr data &&& 0x1F0000#21 = accessWord rw addr 0 := by
  apply BitVec.eq_of_getLsbD_eq
  intro i hi
  rw [BitVec.getLsbD_and, accessWord_getLsbD, accessWord_getLsbD]
  have hm : (0x1F0000#21).getLsbD i = decide (16 ≤ i) := by interval_cases i <;> rfl
  by_cases h16 : i < 16
  · simp [hm, h16]
  · have : 16 ≤ i := by omega
    simp [hm, h16, this]

/-- A mask that keeps RW and ADDR[3] clears the rest. -/
theorem accessWord_and_halfMask (rw : Bool) (addr : Addr) (data : Word) :
    accessWord rw addr data &&& 0x180000#21 = accessWord rw (addr &&& 0x8#4) 0 := by
  apply BitVec.eq_of_getLsbD_eq
  intro i hi
  rw [BitVec.getLsbD_and, accessWord_getLsbD, accessWord_getLsbD, BitVec.getLsbD_and]
  have hm : (0x180000#21).getLsbD i = decide (19 ≤ i) := by interval_cases i <;> rfl
  by_cases h16 : i < 16
  · have : ¬ 19 ≤ i := by omega
    simp [hm, h16, this]
  · by_cases h20 : i < 20
    · have ha : (0x8#4).getLsbD (i - 16) = decide (19 ≤ i) := by interval_cases i <;> rfl
      simp [hm, h16, h20, ha]
    · have : 19 ≤ i := by omega
      simp [hm, h16, h20, this]

end Sys2Proof
end

