-- ==== Sys2Proof/Laws/State.lean ====
section
/-! SUPPORT. One lemma per field per update of the block and of the machine, true by definition. -/

namespace Sys2Proof.Machine

/-! ## Block.fail -/

@[simp] theorem Block.fail_phase (code : ErrCode) (fp : FailPoint) (b : Block) : (b.fail code fp).phase = code.endPhase := rfl
@[simp] theorem Block.fail_timer (code : ErrCode) (fp : FailPoint) (b : Block) : (b.fail code fp).timer = 0 := rfl
@[simp] theorem Block.fail_polls (code : ErrCode) (fp : FailPoint) (b : Block) : (b.fail code fp).polls = 0 := rfl
@[simp] theorem Block.fail_frame (code : ErrCode) (fp : FailPoint) (b : Block) : (b.fail code fp).frame = Frame.zero := rfl
@[simp] theorem Block.fail_bitidx (code : ErrCode) (fp : FailPoint) (b : Block) : (b.fail code fp).bitidx = b.bitidx := rfl
@[simp] theorem Block.fail_temp (code : ErrCode) (fp : FailPoint) (b : Block) : (b.fail code fp).temp = b.temp := rfl
@[simp] theorem Block.fail_hum (code : ErrCode) (fp : FailPoint) (b : Block) : (b.fail code fp).hum = b.hum := rfl
@[simp] theorem Block.fail_haveReading (code : ErrCode) (fp : FailPoint) (b : Block) : (b.fail code fp).haveReading = b.haveReading := rfl
@[simp] theorem Block.fail_errcode (code : ErrCode) (fp : FailPoint) (b : Block) : (b.fail code fp).errcode = code := rfl
@[simp] theorem Block.fail_failph (code : ErrCode) (fp : FailPoint) (b : Block) : (b.fail code fp).failph = fp := rfl
@[simp] theorem Block.fail_pollUs (code : ErrCode) (fp : FailPoint) (b : Block) : (b.fail code fp).pollUs = b.pollUs := rfl
@[simp] theorem Block.fail_budget (code : ErrCode) (fp : FailPoint) (b : Block) : (b.fail code fp).budget = b.budget := rfl
@[simp] theorem Block.fail_progerr (code : ErrCode) (fp : FailPoint) (b : Block) : (b.fail code fp).progerr = b.progerr := rfl

/-! ## Block.commit -/

@[simp] theorem Block.commit_phase (f : Frame) (b : Block) : (b.commit f).phase = .frameComplete := rfl
@[simp] theorem Block.commit_timer (f : Frame) (b : Block) : (b.commit f).timer = 0 := rfl
@[simp] theorem Block.commit_polls (f : Frame) (b : Block) : (b.commit f).polls = 0 := rfl
@[simp] theorem Block.commit_frame (f : Frame) (b : Block) : (b.commit f).frame = Frame.zero := rfl
@[simp] theorem Block.commit_bitidx (f : Frame) (b : Block) : (b.commit f).bitidx = b.bitidx := rfl
@[simp] theorem Block.commit_temp (f : Frame) (b : Block) : (b.commit f).temp = BitVec.ofNat 16 f.decodeTemp := rfl
@[simp] theorem Block.commit_hum (f : Frame) (b : Block) : (b.commit f).hum = BitVec.ofNat 16 f.decodeHum := rfl
@[simp] theorem Block.commit_haveReading (f : Frame) (b : Block) : (b.commit f).haveReading = true := rfl
@[simp] theorem Block.commit_errcode (f : Frame) (b : Block) : (b.commit f).errcode = .none := rfl
@[simp] theorem Block.commit_failph (f : Frame) (b : Block) : (b.commit f).failph = .none := rfl
@[simp] theorem Block.commit_pollUs (f : Frame) (b : Block) : (b.commit f).pollUs = b.pollUs := rfl
@[simp] theorem Block.commit_budget (f : Frame) (b : Block) : (b.commit f).budget = b.budget := rfl
@[simp] theorem Block.commit_progerr (f : Frame) (b : Block) : (b.commit f).progerr = b.progerr := rfl

/-! ## Block.begin -/

@[simp] theorem Block.begin_phase (cfg : Config.Build) (b : Block) : (b.begin cfg).phase = .rstLow := rfl
@[simp] theorem Block.begin_timer (cfg : Config.Build) (b : Block) : (b.begin cfg).timer = BitVec.ofNat 32 cfg.tResetUs := rfl
@[simp] theorem Block.begin_polls (cfg : Config.Build) (b : Block) : (b.begin cfg).polls = 0 := rfl
@[simp] theorem Block.begin_frame (cfg : Config.Build) (b : Block) : (b.begin cfg).frame = Frame.zero := rfl
@[simp] theorem Block.begin_bitidx (cfg : Config.Build) (b : Block) : (b.begin cfg).bitidx = 0 := rfl
@[simp] theorem Block.begin_temp (cfg : Config.Build) (b : Block) : (b.begin cfg).temp = b.temp := rfl
@[simp] theorem Block.begin_hum (cfg : Config.Build) (b : Block) : (b.begin cfg).hum = b.hum := rfl
@[simp] theorem Block.begin_haveReading (cfg : Config.Build) (b : Block) : (b.begin cfg).haveReading = b.haveReading := rfl
@[simp] theorem Block.begin_errcode (cfg : Config.Build) (b : Block) : (b.begin cfg).errcode = .none := rfl
@[simp] theorem Block.begin_failph (cfg : Config.Build) (b : Block) : (b.begin cfg).failph = .none := rfl
@[simp] theorem Block.begin_pollUs (cfg : Config.Build) (b : Block) : (b.begin cfg).pollUs = b.pollUs := rfl
@[simp] theorem Block.begin_budget (cfg : Config.Build) (b : Block) : (b.begin cfg).budget = b.budget := rfl
@[simp] theorem Block.begin_progerr (cfg : Config.Build) (b : Block) : (b.begin cfg).progerr = b.progerr := rfl

/-! ## Block.toIdle -/

@[simp] theorem Block.toIdle_phase (b : Block) : (b.toIdle).phase = .idle := rfl
@[simp] theorem Block.toIdle_timer (b : Block) : (b.toIdle).timer = b.timer := rfl
@[simp] theorem Block.toIdle_polls (b : Block) : (b.toIdle).polls = b.polls := rfl
@[simp] theorem Block.toIdle_frame (b : Block) : (b.toIdle).frame = b.frame := rfl
@[simp] theorem Block.toIdle_bitidx (b : Block) : (b.toIdle).bitidx = 0 := rfl
@[simp] theorem Block.toIdle_temp (b : Block) : (b.toIdle).temp = b.temp := rfl
@[simp] theorem Block.toIdle_hum (b : Block) : (b.toIdle).hum = b.hum := rfl
@[simp] theorem Block.toIdle_haveReading (b : Block) : (b.toIdle).haveReading = b.haveReading := rfl
@[simp] theorem Block.toIdle_errcode (b : Block) : (b.toIdle).errcode = .none := rfl
@[simp] theorem Block.toIdle_failph (b : Block) : (b.toIdle).failph = .none := rfl
@[simp] theorem Block.toIdle_pollUs (b : Block) : (b.toIdle).pollUs = b.pollUs := rfl
@[simp] theorem Block.toIdle_budget (b : Block) : (b.toIdle).budget = b.budget := rfl
@[simp] theorem Block.toIdle_progerr (b : Block) : (b.toIdle).progerr = b.progerr := rfl

/-! ## Block.progError -/

@[simp] theorem Block.progError_phase (b : Block) : (b.progError).phase = b.phase := rfl
@[simp] theorem Block.progError_timer (b : Block) : (b.progError).timer = b.timer := rfl
@[simp] theorem Block.progError_polls (b : Block) : (b.progError).polls = b.polls := rfl
@[simp] theorem Block.progError_frame (b : Block) : (b.progError).frame = b.frame := rfl
@[simp] theorem Block.progError_bitidx (b : Block) : (b.progError).bitidx = b.bitidx := rfl
@[simp] theorem Block.progError_temp (b : Block) : (b.progError).temp = b.temp := rfl
@[simp] theorem Block.progError_hum (b : Block) : (b.progError).hum = b.hum := rfl
@[simp] theorem Block.progError_haveReading (b : Block) : (b.progError).haveReading = b.haveReading := rfl
@[simp] theorem Block.progError_errcode (b : Block) : (b.progError).errcode = b.errcode := rfl
@[simp] theorem Block.progError_failph (b : Block) : (b.progError).failph = b.failph := rfl
@[simp] theorem Block.progError_pollUs (b : Block) : (b.progError).pollUs = b.pollUs := rfl
@[simp] theorem Block.progError_budget (b : Block) : (b.progError).budget = b.budget := rfl
@[simp] theorem Block.progError_progerr (b : Block) : (b.progError).progerr = true := rfl

/-! ## Block.clearProgerr -/

@[simp] theorem Block.clearProgerr_phase (b : Block) : (b.clearProgerr).phase = b.phase := rfl
@[simp] theorem Block.clearProgerr_timer (b : Block) : (b.clearProgerr).timer = b.timer := rfl
@[simp] theorem Block.clearProgerr_polls (b : Block) : (b.clearProgerr).polls = b.polls := rfl
@[simp] theorem Block.clearProgerr_frame (b : Block) : (b.clearProgerr).frame = b.frame := rfl
@[simp] theorem Block.clearProgerr_bitidx (b : Block) : (b.clearProgerr).bitidx = b.bitidx := rfl
@[simp] theorem Block.clearProgerr_temp (b : Block) : (b.clearProgerr).temp = b.temp := rfl
@[simp] theorem Block.clearProgerr_hum (b : Block) : (b.clearProgerr).hum = b.hum := rfl
@[simp] theorem Block.clearProgerr_haveReading (b : Block) : (b.clearProgerr).haveReading = b.haveReading := rfl
@[simp] theorem Block.clearProgerr_errcode (b : Block) : (b.clearProgerr).errcode = b.errcode := rfl
@[simp] theorem Block.clearProgerr_failph (b : Block) : (b.clearProgerr).failph = b.failph := rfl
@[simp] theorem Block.clearProgerr_pollUs (b : Block) : (b.clearProgerr).pollUs = b.pollUs := rfl
@[simp] theorem Block.clearProgerr_budget (b : Block) : (b.clearProgerr).budget = b.budget := rfl
@[simp] theorem Block.clearProgerr_progerr (b : Block) : (b.clearProgerr).progerr = false := rfl

/-! ## Block.enter -/

@[simp] theorem Block.enter_phase (cfg : Config.Build) (p : Phase) (b : Block) : (b.enter cfg p).phase = p := rfl
@[simp] theorem Block.enter_timer (cfg : Config.Build) (p : Phase) (b : Block) : (b.enter cfg p).timer = enterTimer cfg p := rfl
@[simp] theorem Block.enter_polls (cfg : Config.Build) (p : Phase) (b : Block) : (b.enter cfg p).polls = 0 := rfl
@[simp] theorem Block.enter_frame (cfg : Config.Build) (p : Phase) (b : Block) : (b.enter cfg p).frame = b.frame := rfl
@[simp] theorem Block.enter_bitidx (cfg : Config.Build) (p : Phase) (b : Block) : (b.enter cfg p).bitidx = b.bitidx := rfl
@[simp] theorem Block.enter_temp (cfg : Config.Build) (p : Phase) (b : Block) : (b.enter cfg p).temp = b.temp := rfl
@[simp] theorem Block.enter_hum (cfg : Config.Build) (p : Phase) (b : Block) : (b.enter cfg p).hum = b.hum := rfl
@[simp] theorem Block.enter_haveReading (cfg : Config.Build) (p : Phase) (b : Block) : (b.enter cfg p).haveReading = b.haveReading := rfl
@[simp] theorem Block.enter_errcode (cfg : Config.Build) (p : Phase) (b : Block) : (b.enter cfg p).errcode = b.errcode := rfl
@[simp] theorem Block.enter_failph (cfg : Config.Build) (p : Phase) (b : Block) : (b.enter cfg p).failph = b.failph := rfl
@[simp] theorem Block.enter_pollUs (cfg : Config.Build) (p : Phase) (b : Block) : (b.enter cfg p).pollUs = b.pollUs := rfl
@[simp] theorem Block.enter_budget (cfg : Config.Build) (p : Phase) (b : Block) : (b.enter cfg p).budget = b.budget := rfl
@[simp] theorem Block.enter_progerr (cfg : Config.Build) (p : Phase) (b : Block) : (b.enter cfg p).progerr = b.progerr := rfl

/-! ## Block.countDown -/

@[simp] theorem Block.countDown_phase (b : Block) : (b.countDown).phase = b.phase := rfl
@[simp] theorem Block.countDown_timer (b : Block) : (b.countDown).timer = b.timer - 1 := rfl
@[simp] theorem Block.countDown_polls (b : Block) : (b.countDown).polls = b.polls := rfl
@[simp] theorem Block.countDown_frame (b : Block) : (b.countDown).frame = b.frame := rfl
@[simp] theorem Block.countDown_bitidx (b : Block) : (b.countDown).bitidx = b.bitidx := rfl
@[simp] theorem Block.countDown_temp (b : Block) : (b.countDown).temp = b.temp := rfl
@[simp] theorem Block.countDown_hum (b : Block) : (b.countDown).hum = b.hum := rfl
@[simp] theorem Block.countDown_haveReading (b : Block) : (b.countDown).haveReading = b.haveReading := rfl
@[simp] theorem Block.countDown_errcode (b : Block) : (b.countDown).errcode = b.errcode := rfl
@[simp] theorem Block.countDown_failph (b : Block) : (b.countDown).failph = b.failph := rfl
@[simp] theorem Block.countDown_pollUs (b : Block) : (b.countDown).pollUs = b.pollUs := rfl
@[simp] theorem Block.countDown_budget (b : Block) : (b.countDown).budget = b.budget := rfl
@[simp] theorem Block.countDown_progerr (b : Block) : (b.countDown).progerr = b.progerr := rfl

/-! ## Block.missedSample -/

@[simp] theorem Block.missedSample_phase (b : Block) : (b.missedSample).phase = b.phase := rfl
@[simp] theorem Block.missedSample_timer (b : Block) : (b.missedSample).timer = b.pollUs.setWidth 32 - 1 := rfl
@[simp] theorem Block.missedSample_polls (b : Block) : (b.missedSample).polls = b.polls + 1 := rfl
@[simp] theorem Block.missedSample_frame (b : Block) : (b.missedSample).frame = b.frame := rfl
@[simp] theorem Block.missedSample_bitidx (b : Block) : (b.missedSample).bitidx = b.bitidx := rfl
@[simp] theorem Block.missedSample_temp (b : Block) : (b.missedSample).temp = b.temp := rfl
@[simp] theorem Block.missedSample_hum (b : Block) : (b.missedSample).hum = b.hum := rfl
@[simp] theorem Block.missedSample_haveReading (b : Block) : (b.missedSample).haveReading = b.haveReading := rfl
@[simp] theorem Block.missedSample_errcode (b : Block) : (b.missedSample).errcode = b.errcode := rfl
@[simp] theorem Block.missedSample_failph (b : Block) : (b.missedSample).failph = b.failph := rfl
@[simp] theorem Block.missedSample_pollUs (b : Block) : (b.missedSample).pollUs = b.pollUs := rfl
@[simp] theorem Block.missedSample_budget (b : Block) : (b.missedSample).budget = b.budget := rfl
@[simp] theorem Block.missedSample_progerr (b : Block) : (b.missedSample).progerr = b.progerr := rfl

/-! ## State.onBlock -/

@[simp] theorem State.onBlock_cfg (f : Block → Block) (s : State) : (s.onBlock f).cfg = s.cfg := rfl
@[simp] theorem State.onBlock_blk (f : Block → Block) (s : State) : (s.onBlock f).blk = f s.blk := rfl
@[simp] theorem State.onBlock_line (f : Block → Block) (s : State) : (s.onBlock f).line = s.line := rfl
@[simp] theorem State.onBlock_rdata (f : Block → Block) (s : State) : (s.onBlock f).rdata = s.rdata := rfl
@[simp] theorem State.onBlock_events (f : Block → Block) (s : State) : (s.onBlock f).events = s.events := rfl
@[simp] theorem State.onBlock_draws (f : Block → Block) (s : State) : (s.onBlock f).draws = s.draws := rfl

/-! ## resetEvent -/

@[simp] theorem resetEvent_cfg (s : State) : (resetEvent s).cfg = s.cfg := rfl
@[simp] theorem resetEvent_blk (s : State) : (resetEvent s).blk = Block.reset := rfl
@[simp] theorem resetEvent_line (s : State) : (resetEvent s).line = s.line := rfl
@[simp] theorem resetEvent_rdata (s : State) : (resetEvent s).rdata = s.rdata := rfl
@[simp] theorem resetEvent_events (s : State) : (resetEvent s).events = s.events := rfl
@[simp] theorem resetEvent_draws (s : State) : (resetEvent s).draws = s.draws := rfl

/-! ## sampleLine -/

@[simp] theorem sampleLine_cfg (level : Level) (s : State) : (sampleLine level s).cfg = s.cfg := rfl
@[simp] theorem sampleLine_blk (level : Level) (s : State) : (sampleLine level s).blk = s.blk := rfl
@[simp] theorem sampleLine_line (level : Level) (s : State) : (sampleLine level s).line = level := rfl
@[simp] theorem sampleLine_rdata (level : Level) (s : State) : (sampleLine level s).rdata = s.rdata := rfl
@[simp] theorem sampleLine_events (level : Level) (s : State) : (sampleLine level s).events = s.events := rfl
@[simp] theorem sampleLine_draws (level : Level) (s : State) : (sampleLine level s).draws = s.draws := rfl

end Sys2Proof.Machine
end

