-- ==== Sys2Proof/Laws/Ops.lean ====
section
/-! SUPPORT. For each shared operation one lemma that says everything it can do, cited instead of unfolding it. -/

namespace Sys2Proof.Machine

/-! ## Operands -/

/-- A byte takes one bit at its low end and loses its top bit (R150). -/
theorem shiftBit_toNat (byte : Byte) (line : Level) :
    (shiftBit byte line).toNat = (2 * byte.toNat + line.toNat) % 256 := by
  have h : (BitVec.ofBool line).toNat = line.toNat := by cases line <;> rfl
  simp only [shiftBit, BitVec.toNat_setWidth, BitVec.toNat_append, h]
  rw [Nat.shiftLeft_eq, ← Nat.shiftLeft_eq, ← Nat.shiftLeft_add_eq_or_of_lt (by cases line <;> decide), Nat.shiftLeft_eq]
  omega

/-- What write-any-read-legal stores is never 0 (R32, R33). -/
theorem legalTiming_pos (v : Word) : 1 ≤ (legalTiming v).toNat := by
  unfold legalTiming
  split
  · decide
  · rename_i h
    have : v.toNat ≠ 0 := fun e => h (BitVec.eq_of_toNat_eq (by simpa using e))
    omega

/-- A nonzero value is stored as written (R32, R33). -/
theorem legalTiming_of_ne_zero {v : Word} (h : v ≠ 0) : legalTiming v = v := if_neg h

/-- The frame has a byte k exactly for k in 0..4 (R25, R150). -/
theorem shiftInto_isSome (f : Frame) (k : Nat) (line : Level) : (f.shiftInto k line).isSome = decide (k < 5) := by
  match k with
  | 0 | 1 | 2 | 3 | 4 => rfl
  | k + 5 =>
    have h : ¬ k + 5 < 5 := by omega
    simp [Frame.shiftInto, h]

/-! ## Checksum and decode -/

/-- `checksum_ok` as the equation of R180. -/
theorem checksumOk_iff (f : Frame) :
    f.checksumOk = true ↔
      (f.humidityHigh.toNat + f.humidityLow.toNat + f.temperatureHigh.toNat + f.temperatureLow.toNat) % 256 =
        f.checksum.toNat := by
  simp [Frame.checksumOk, Frame.sum]

/-- R182's formula for the temperature. -/
theorem decodeTemp_eq (f : Frame) : f.decodeTemp = f.temperatureHigh.toNat * 10 + f.temperatureLow.toNat := rfl

/-- R182's formula for the humidity. -/
theorem decodeHum_eq (f : Frame) : f.decodeHum = f.humidityHigh.toNat * 10 + f.humidityLow.toNat := rfl

/-! ## Errors, completion and commands -/

/-- While busy, a guarded write is a programming error. -/
theorem whenNotBusy_busy {b : Block} (f : Block → Block) (h : b.busy = true) : b.whenNotBusy f = b.progError :=
  if_pos h

/-- While not busy, a guarded write is accepted. -/
theorem whenNotBusy_free {b : Block} (f : Block → Block) (h : b.busy = false) : b.whenNotBusy f = f b := by
  simp [Block.whenNotBusy, h]

/-- A frame completes in one of two ways (R184). -/
theorem complete_cases (b : Block) :
    (b.frame.checksumOk = true ∧ b.complete = b.commit b.frame) ∨
    (b.frame.checksumOk = false ∧ b.complete = b.fail .checksumMismatch .checksum) := by
  cases h : b.frame.checksumOk <;> simp [Block.complete, h]

/-! ## The sequencer's primitives -/

/-- A timed phase either ends or counts down (R144, R145). -/
theorem timedStep_cases (onLast : Block → Block) (b : Block) :
    (b.timer = 1 ∧ b.timedStep onLast = onLast b) ∨ (b.timer ≠ 1 ∧ b.timedStep onLast = b.countDown) := by
  unfold Block.timedStep
  split <;> simp_all

/-- The four things a bounded wait can do on one tick (R142). -/
theorem waitStep_cases (target : Level) (code : ErrCode) (fp : FailPoint) (onSuccess : Block → Block) (line : Level)
    (b : Block) :
    (b.timer ≠ 0 ∧ b.waitStep target code fp onSuccess line = b.countDown) ∨
    (b.timer = 0 ∧ line = target ∧ b.waitStep target code fp onSuccess line = onSuccess b) ∨
    (b.timer = 0 ∧ line ≠ target ∧ b.polls.toNat + 1 = b.budget.toNat ∧
      b.waitStep target code fp onSuccess line = b.fail code fp) ∨
    (b.timer = 0 ∧ line ≠ target ∧ b.polls.toNat + 1 ≠ b.budget.toNat ∧
      b.waitStep target code fp onSuccess line = b.missedSample) := by
  unfold Block.waitStep
  split
  · simp_all
  · split
    · simp_all
    · split <;> simp_all

/-- A sampled bit goes into byte `bitidx div 8` of the frame, counts, and enters BIT_WAIT_LOW; there is no sixth byte
(R150). -/
theorem sampleBit_cases (cfg : Config.Build) (line : Level) (b : Block) :
    (b.bitidx.toNat < 40 ∧ ∃ f, b.frame.shiftInto (b.bitidx.toNat / 8) line = some f ∧
      b.sampleBit cfg line =
        some { b with frame := f, bitidx := b.bitidx + 1, phase := .bitWaitLow, polls := 0, timer := 0 }) ∨
    (40 ≤ b.bitidx.toNat ∧ b.sampleBit cfg line = none) := by
  have hs := shiftInto_isSome b.frame (b.bitidx.toNat / 8) line
  cases hf : b.frame.shiftInto (b.bitidx.toNat / 8) line with
  | none =>
    right
    rw [hf] at hs
    have : ¬ b.bitidx.toNat / 8 < 5 := by simpa using hs
    exact ⟨by omega, by simp [Block.sampleBit, hf]⟩
  | some f =>
    left
    rw [hf] at hs
    have : b.bitidx.toNat / 8 < 5 := by simpa using hs
    exact ⟨by omega, f, rfl, by simp [Block.sampleBit, hf, Block.enter, enterTimer]⟩

/-! ## Events -/

/-- The next event is the first one in store. -/
theorem takeEvent_cons (e : Event) (es : List Event) (s : State) :
    takeEvent { s with events := e :: es } = (e, { s with events := es }) := rfl

/-- With nothing in store a Tick of a free level comes. -/
theorem takeEvent_nil {s : State} (h : s.events = []) :
    takeEvent s = (.tick (Config.lineDraw s.draws), { s with draws := s.draws + 1 }) := by
  simp [takeEvent, h]

/-- Taking an event touches the block, its build parameters and its ports nowhere. -/
theorem takeEvent_frame (s : State) :
    (takeEvent s).2.cfg = s.cfg ∧ (takeEvent s).2.blk = s.blk ∧ (takeEvent s).2.line = s.line ∧
      (takeEvent s).2.rdata = s.rdata := by
  unfold takeEvent
  split <;> simp

/-! ## Phases and their codes -/

/-- A phase's code stands for that phase (R21). -/
theorem ofCode_code (p : Phase) : Phase.ofCode p.code = some p := by cases p <;> rfl

/-- The decoder reads a phase's code as the micro-operation a Tick performs in it (R84, R140). -/
theorem decodePhase_code (p : Phase) : decodePhase p.code = .ok p.operation := by cases p <;> rfl

/-- Busy is: not IDLE, not terminal (R36). -/
theorem busy_iff (b : Block) :
    b.busy = true ↔ b.phase ≠ .idle ∧ b.phase ≠ .frameComplete ∧ b.phase ≠ .timedOut := by
  unfold Block.busy
  cases b.phase <;> simp

/-- A Tick that samples the line is in a wait phase at timer 0, or in BIT_SETTLE at timer 1 (R157). -/
theorem samplesLine_iff (b : Block) :
    Safety.samplesLine b = true ↔
      (b.phase.isWait = true ∧ b.timer = 0) ∨ (b.phase = .bitSettle ∧ b.timer = 1) := by
  simp [Safety.samplesLine]

end Sys2Proof.Machine
end

