-- ==== Sys2Proof/Laws/Inv.lean ====
section
/-! SUPPORT. Each shared operation keeps the block's invariant where the sequencer or the host uses it. -/

namespace Sys2Proof.Laws

open Sys2Proof.Machine Sys2Proof.Safety

variable {cfg : Config.Build} {b : Block}

/-- R7's legal ranges as inequalities. -/
theorem legal_bounds (h : cfg.legal = true) :
    18001 ≤ cfg.tResetUs ∧ cfg.tResetUs < 2 ^ 32 ∧ 20 ≤ cfg.tReleaseUs ∧ cfg.tReleaseUs ≤ 40 ∧
      1 ≤ cfg.tSettleUs ∧ cfg.tSettleUs < 2 ^ 16 := by
  simp only [Config.Build.legal, Bool.and_eq_true, decide_eq_true_eq] at h
  omega

/-- Before a transaction ends no error is recorded (R39.1). -/
theorem errcode_none_of_not_terminal (h : ReachableFacts b) (hp : b.phase ≠ .frameComplete ∧ b.phase ≠ .timedOut) :
    b.errcode = .none := by
  by_contra he
  exact (h.err_terminal he).elim hp.1 hp.2

/-- A wait phase is no timed phase. -/
theorem isTimed_of_isWait {p : Phase} (h : p.isWait = true) : isTimed p = false := by
  cases p <;> simp_all [Phase.isWait, isTimed]

/-- The phase of a wait row is a wait phase. -/
theorem isWait_of_mem_waitRows {q : WaitRow} (hq : q ∈ waitRows) : q.phase.isWait = true := by
  simp only [waitRows, List.mem_cons, List.not_mem_nil, or_false] at hq
  rcases hq with rfl | rfl | rfl | rfl <;> rfl

/-- A tick that does not end a phase keeps the invariant. -/
theorem countDown_keeps (h : BlockInv cfg b) (h0 : b.timer ≠ 0) (h1 : isTimed b.phase = true → b.timer ≠ 1) :
    BlockInv cfg b.countDown := by
  obtain ⟨hr, hc⟩ := h
  have h0n : b.timer.toNat ≠ 0 := fun e => h0 (BitVec.eq_of_toNat_eq (by simpa using e))
  have hs : (b.timer - 1).toNat = b.timer.toNat - 1 := by bv_omega
  refine ⟨⟨hr.1, hr.2, hr.3, hr.4, hr.5, hr.6, hr.7, hr.8, hr.9, hr.10, hr.11⟩,
    ?_, ?_, ?_, hc.4, hc.5, hc.6, hc.7, hc.8, hc.9⟩
  · intro hp
    have h1n : b.timer.toNat ≠ 1 := fun e => h1 hp (BitVec.eq_of_toNat_eq (by simpa using e))
    have := hc.timed_timer hp
    simp only [Block.countDown_timer, Block.countDown_phase, hs]
    omega
  · intro hp
    have := hc.wait_timer hp
    simp only [Block.countDown_timer, Block.countDown_pollUs, hs]
    omega
  · exact fun hp hq => absurd (hc.rest_timer hp hq) h0

/-- A missed sample within the budget keeps the invariant. -/
theorem missedSample_keeps (h : BlockInv cfg b) (hp : b.phase.isWait = true)
    (hb : b.polls.toNat + 1 ≠ b.budget.toNat) : BlockInv cfg b.missedSample := by
  obtain ⟨hr, hc⟩ := h
  have hpolls := hr.polls_bound
  have hbudget := hr.budget_pos
  have hpoll := hr.poll_us_pos
  have hbl := b.budget.isLt
  have hpl := b.pollUs.isLt
  have e1 : (b.polls + 1).toNat = b.polls.toNat + 1 := by bv_omega
  have e2 : (b.pollUs.setWidth 32 - 1).toNat = b.pollUs.toNat - 1 := by
    have : (b.pollUs.setWidth 32).toNat = b.pollUs.toNat := by simp; omega
    bv_omega
  refine ⟨⟨hr.1, hr.2, hr.3, hr.4, hr.5, hr.6, hr.7, hr.8, ?_, hr.10, hr.11⟩,
    ?_, ?_, ?_, ?_, hc.5, hc.6, hc.7, hc.8, hc.9⟩
  · simp only [Block.missedSample_polls, Block.missedSample_budget, e1]
    omega
  · exact fun ht => absurd ht (by simp [isTimed_of_isWait hp])
  · exact fun _ => Nat.le_of_eq e2
  · exact fun _ hw => absurd hw (by simp [hp])
  · exact fun hw => absurd hw (by simp [hp])

/-- Running out of budget in a wait phase keeps the invariant. -/
theorem fail_keeps (h : BlockInv cfg b) {q : WaitRow} (hq : q ∈ waitRows) (hp : b.phase = q.phase) :
    BlockInv cfg (b.fail q.code q.fp) := by
  obtain ⟨hr, hc⟩ := h
  have hnr := hc.no_reading
  simp only [waitRows, List.mem_cons, List.not_mem_nil, or_false] at hq
  rcases hq with rfl | rfl | rfl | rfl <;>
    refine ⟨⟨?_, ?_, ?_, ?_, ?_, ?_, ?_, ?_, ?_, ?_, ?_⟩, ?_, ?_, ?_, ?_, ?_, ?_, ?_, ?_, ?_⟩ <;>
    simp [ErrCode.endPhase, isTimed, Phase.isWait, Phase.isBit, hr.poll_us_pos, hr.budget_pos, hr.bitidx_bound,
      hc.temp_range, hc.hum_range] <;>
    exact hnr

/-- A checksum mismatch after 40 bits keeps the invariant. -/
theorem checksumFail_keeps (h : BlockInv cfg b) (hi : b.bitidx = 40) :
    BlockInv cfg (b.fail .checksumMismatch .checksum) := by
  obtain ⟨hr, hc⟩ := h
  have hnr := hc.no_reading
  refine ⟨⟨?_, ?_, ?_, ?_, ?_, ?_, ?_, ?_, ?_, ?_, ?_⟩, ?_, ?_, ?_, ?_, ?_, ?_, ?_, ?_, ?_⟩ <;>
    simp [ErrCode.endPhase, isTimed, Phase.isWait, Phase.isBit, hr.poll_us_pos, hr.budget_pos, hi,
      hc.temp_range, hc.hum_range]
  exact hnr

/-- The decoder stays in 0..2805 (R183). -/
theorem decode_le (f : Frame) : f.decodeTemp ≤ 2805 ∧ f.decodeHum ≤ 2805 := by
  have := f.temperatureHigh.isLt
  have := f.temperatureLow.isLt
  have := f.humidityHigh.isLt
  have := f.humidityLow.isLt
  rw [decodeTemp_eq, decodeHum_eq]
  omega

/-- Committing a frame of 40 bits keeps the invariant. -/
theorem commit_keeps (h : BlockInv cfg b) (hi : b.bitidx = 40) (f : Frame) : BlockInv cfg (b.commit f) := by
  obtain ⟨hr, -⟩ := h
  have hd := decode_le f
  refine ⟨⟨?_, ?_, ?_, ?_, ?_, ?_, ?_, ?_, ?_, ?_, ?_⟩, ?_, ?_, ?_, ?_, ?_, ?_, ?_, ?_, ?_⟩ <;>
    simp [isTimed, Phase.isWait, Phase.isBit, hr.poll_us_pos, hr.budget_pos, hi] <;>
    omega

/-- Completing a frame of 40 bits keeps the invariant. -/
theorem complete_keeps (h : BlockInv cfg b) (hi : b.bitidx = 40) : BlockInv cfg b.complete := by
  rcases complete_cases b with ⟨_, e⟩ | ⟨_, e⟩ <;> rw [e]
  · exact commit_keeps h hi _
  · exact checksumFail_keeps h hi

/-- Entering a phase keeps the invariant, where the bit index and the frame fit that phase. -/
theorem enter_keeps (hl : cfg.legal = true) (h : BlockInv cfg b)
    (hb : b.phase ≠ .frameComplete ∧ b.phase ≠ .timedOut) (p : Phase)
    (hp : p ≠ .frameComplete ∧ p ≠ .timedOut ∧ p ≠ .rstLow ∧ p ≠ .idle)
    (hearly : p = .relWait ∨ p = .presLow ∨ p = .presHigh ∨ p = .presOk → b.bitidx = 0 ∧ b.frame = Frame.zero)
    (hbefore : p = .bitWaitHigh ∨ p = .bitSettle → b.bitidx.toNat ≤ 39)
    (hafter : p = .bitWaitLow → 1 ≤ b.bitidx.toNat) : BlockInv cfg (b.enter cfg p) := by
  have hnone := errcode_none_of_not_terminal h.1 hb
  obtain ⟨hr, hc⟩ := h
  have hlb := legal_bounds hl
  have hnp := hr.no_presence
  have hbt := hr.bit_timeout
  rw [hnone] at hnp hbt
  have e1 : cfg.tReleaseUs - 1 < 4294967296 := by omega
  have e2 : cfg.tSettleUs < 4294967296 := by omega
  refine ⟨⟨?_, ?_, ?_, hr.4, hr.5, ?_, hr.7, hr.8, ?_, hr.10, ?_⟩,
    ?_, ?_, ?_, ?_, ?_, ?_, hc.7, hc.8, hc.9⟩ <;>
    cases p <;> simp_all [enterTimer, isTimed, Phase.isWait, Phase.isBit, timedTicks]
  all_goals
    rw [Nat.mod_eq_of_lt (by omega)]
    omega

/-- Sampling a bit in BIT_SETTLE keeps the invariant. -/
theorem sampled_keeps (h : BlockInv cfg b) (hp : b.phase = .bitSettle) (f : Frame) :
    BlockInv cfg { b with frame := f, bitidx := b.bitidx + 1, phase := .bitWaitLow, polls := 0, timer := 0 } := by
  have hnone := errcode_none_of_not_terminal h.1 (by simp [hp])
  obtain ⟨hr, hc⟩ := h
  have h39 := hc.before_sample (by simp [hp])
  have e1 : (b.bitidx + 1#6).toNat = b.bitidx.toNat + 1 := by bv_omega
  have hnp := hr.no_presence
  have hbt := hr.bit_timeout
  rw [hnone] at hnp hbt
  refine ⟨⟨?_, ?_, ?_, hr.4, hr.5, ?_, hr.7, hr.8, ?_, ?_, ?_⟩, ?_, ?_, ?_, ?_, ?_, ?_, hc.7, hc.8, hc.9⟩ <;>
    simp [isTimed, Phase.isWait, Phase.isBit, hnone, e1]
  omega

/-- A bounded wait keeps the invariant if its success does. -/
theorem waitStep_keeps (h : BlockInv cfg b) {q : WaitRow} (hq : q ∈ waitRows) (hp : b.phase = q.phase)
    (onSuccess : Block → Block) (line : Level) (hs : BlockInv cfg (onSuccess b)) :
    BlockInv cfg (b.waitStep q.target q.code q.fp onSuccess line) := by
  have hw : b.phase.isWait = true := hp ▸ isWait_of_mem_waitRows hq
  rcases waitStep_cases q.target q.code q.fp onSuccess line b with
    ⟨h0, e⟩ | ⟨_, _, e⟩ | ⟨_, _, _, e⟩ | ⟨_, _, hb, e⟩ <;> rw [e]
  · exact countDown_keeps h h0 fun ht => absurd ht (by simp [isTimed_of_isWait hw])
  · exact hs
  · exact fail_keeps h hq hp
  · exact missedSample_keeps h hw hb

/-- A timed phase keeps the invariant if its end does. -/
theorem timedStep_keeps (h : BlockInv cfg b) (hp : isTimed b.phase = true) (onLast : Block → Block)
    (hs : BlockInv cfg (onLast b)) : BlockInv cfg (b.timedStep onLast) := by
  have ht := h.2.timed_timer hp
  rcases timedStep_cases onLast b with ⟨_, e⟩ | ⟨h1, e⟩ <;> rw [e]
  · exact hs
  · refine countDown_keeps h (fun h0 => ?_) fun _ => h1
    simp [h0] at ht

/-- Setting or clearing PROGERR keeps the invariant. -/
theorem progerr_keeps (h : BlockInv cfg b) (v : Bool) : BlockInv cfg { b with progerr := v } := by
  obtain ⟨hr, hc⟩ := h
  exact ⟨⟨hr.1, hr.2, hr.3, hr.4, hr.5, hr.6, hr.7, hr.8, hr.9, hr.10, hr.11⟩,
    hc.1, hc.2, hc.3, hc.4, hc.5, hc.6, hc.7, hc.8, hc.9⟩

/-- A block that is not busy rests: its timer and its polls are 0 and its frame is zero. -/
theorem rests_of_not_busy (h : BlockInv cfg b) (hb : b.busy = false) :
    b.timer = 0 ∧ b.polls = 0 ∧ b.frame = Frame.zero ∧ isTimed b.phase = false ∧ b.phase.isWait = false := by
  obtain ⟨hr, hc⟩ := h
  have hp : b.phase = .idle ∨ b.phase = .frameComplete ∨ b.phase = .timedOut := by
    have := busy_iff b
    rw [hb] at this
    by_contra hn
    simp_all
  have ht : isTimed b.phase = false ∧ b.phase.isWait = false ∧ b.phase.isBit = false := by
    rcases hp with e | e | e <;> rw [e] <;> exact ⟨rfl, rfl, rfl⟩
  exact ⟨hc.rest_timer ht.1 ht.2.1, hc.rest_polls ht.2.1, hr.frame_zero ht.2.2, ht.1, ht.2.1⟩

/-- Beginning a transaction keeps the invariant. -/
theorem begin_keeps (hl : cfg.legal = true) (h : BlockInv cfg b) : BlockInv cfg (b.begin cfg) := by
  obtain ⟨hr, hc⟩ := h
  have hlb := legal_bounds hl
  have hnr := hc.no_reading
  have e1 : cfg.tResetUs % 4294967296 = cfg.tResetUs := Nat.mod_eq_of_lt (by omega)
  refine ⟨⟨?_, ?_, ?_, ?_, ?_, ?_, hr.7, hr.8, ?_, ?_, ?_⟩, ?_, ?_, ?_, ?_, ?_, ?_, hc.7, hc.8, hc.9⟩ <;>
    simp [isTimed, Phase.isWait, timedTicks, e1]
  omega

/-- Going back to IDLE from a block that is not busy keeps the invariant. -/
theorem toIdle_keeps (h : BlockInv cfg b) (hb : b.busy = false) : BlockInv cfg b.toIdle := by
  obtain ⟨ht, hp, hf, -, -⟩ := rests_of_not_busy h hb
  obtain ⟨hr, hc⟩ := h
  refine ⟨⟨?_, ?_, ?_, ?_, ?_, ?_, hr.7, hr.8, ?_, ?_, ?_⟩, ?_, ?_, ?_, ?_, ?_, ?_, hc.7, hc.8, hc.9⟩ <;>
    simp [isTimed, Phase.isWait, ht, hp, hf]

/-- An accepted write to POLL_US keeps the invariant. -/
theorem pollUsWrite_keeps (h : BlockInv cfg b) (hb : b.busy = false) (v : Word) :
    BlockInv cfg { b with pollUs := legalTiming v } := by
  obtain ⟨-, -, -, -, hw⟩ := rests_of_not_busy h hb
  obtain ⟨hr, hc⟩ := h
  exact ⟨⟨hr.1, hr.2, hr.3, hr.4, hr.5, hr.6, legalTiming_pos v, hr.8, hr.9, hr.10, hr.11⟩,
    hc.1, fun hp => absurd hp (by simp [hw]), hc.3, hc.4, hc.5, hc.6, hc.7, hc.8, hc.9⟩

/-- An accepted write to BUDGET keeps the invariant. -/
theorem budgetWrite_keeps (h : BlockInv cfg b) (hb : b.busy = false) (v : Word) :
    BlockInv cfg { b with budget := legalTiming v } := by
  obtain ⟨-, hp, -, -, -⟩ := rests_of_not_busy h hb
  obtain ⟨hr, hc⟩ := h
  exact ⟨⟨hr.1, hr.2, hr.3, hr.4, hr.5, hr.6, hr.7, legalTiming_pos v, by simp [hp], hr.10, hr.11⟩,
    hc.1, hc.2, hc.3, hc.4, hc.5, hc.6, hc.7, hc.8, hc.9⟩

/-- R43's values meet the invariant in every build. -/
theorem reset_blockInv (cfg : Config.Build) : BlockInv cfg Block.reset := by
  refine ⟨⟨?_, ?_, ?_, ?_, ?_, ?_, ?_, ?_, ?_, ?_, ?_⟩, ?_, ?_, ?_, ?_, ?_, ?_, ?_, ?_, ?_⟩ <;>
    simp [Block.reset, isTimed, Phase.isWait, Phase.isBit]

end Sys2Proof.Laws
end

