-- ==== Sys2Proof/Laws/PerInstr.lean ====
section
/-! SUPPORT. Statements made per operation. -/

namespace Sys2Proof.Laws

/-- The row of opcode_table.json that an encoding belongs to carries the operation's mnemonic. -/
def TableRow.Statement (i : Instr) : Prop :=
  match encode i with
  | .access w => ∃ r ∈ accessRows, r.mnemonic = i.mnemonic ∧ r.takes w = true
  | .phase c => (i.mnemonic, c) ∈ phaseRows

/-- A word given by its fields belongs to a row that fixes RW and ADDR. -/
theorem takes_of_fieldMask {r : AccessRow} {rw : Bool} {addr : Addr} (data : Word) (hm : r.mask = 0x1F0000#21)
    (hp : r.pattern = accessWord rw addr 0) : r.takes (accessWord rw addr data) = true := by
  simp [AccessRow.takes, hm, hp, accessWord_and_fieldMask]

/-- A word given by its fields belongs to a row that fixes RW and ADDR[3]. -/
theorem takes_of_halfMask {r : AccessRow} {rw : Bool} {addr : Addr} (data : Word) (hm : r.mask = 0x180000#21)
    (hp : r.pattern = accessWord rw (addr &&& 0x8#4) 0) : r.takes (accessWord rw addr data) = true := by
  simp [AccessRow.takes, hm, hp, accessWord_and_halfMask]

/-- An address of the upper half keeps only its top bit under a mask. -/
theorem upperHalf_and (lo : BitVec 3) : (1#1 ++ lo) &&& 0x8#4 = 0x8#4 := by revert lo; decide

theorem TableRow.rdCtrl (data : Word) : TableRow.Statement (.rdCtrl data) :=
  ⟨accessRows[0], List.getElem_mem _, rfl, takes_of_fieldMask data rfl rfl⟩

theorem TableRow.rdStatus (data : Word) : TableRow.Statement (.rdStatus data) :=
  ⟨accessRows[1], List.getElem_mem _, rfl, takes_of_fieldMask data rfl rfl⟩

theorem TableRow.rdTemp (data : Word) : TableRow.Statement (.rdTemp data) :=
  ⟨accessRows[2], List.getElem_mem _, rfl, takes_of_fieldMask data rfl rfl⟩

theorem TableRow.rdHum (data : Word) : TableRow.Statement (.rdHum data) :=
  ⟨accessRows[3], List.getElem_mem _, rfl, takes_of_fieldMask data rfl rfl⟩

theorem TableRow.rdPollUs (data : Word) : TableRow.Statement (.rdPollUs data) :=
  ⟨accessRows[4], List.getElem_mem _, rfl, takes_of_fieldMask data rfl rfl⟩

theorem TableRow.rdBudget (data : Word) : TableRow.Statement (.rdBudget data) :=
  ⟨accessRows[5], List.getElem_mem _, rfl, takes_of_fieldMask data rfl rfl⟩

theorem TableRow.rdBitidx (data : Word) : TableRow.Statement (.rdBitidx data) :=
  ⟨accessRows[6], List.getElem_mem _, rfl, takes_of_fieldMask data rfl rfl⟩

theorem TableRow.rdUnmapped7 (data : Word) : TableRow.Statement (.rdUnmapped7 data) :=
  ⟨accessRows[7], List.getElem_mem _, rfl, takes_of_fieldMask data rfl rfl⟩

theorem TableRow.rdUnmapped8F (lo : BitVec 3) (data : Word) : TableRow.Statement (.rdUnmapped8F lo data) :=
  ⟨accessRows[8], List.getElem_mem _, rfl, takes_of_halfMask data rfl (by rw [upperHalf_and]; rfl)⟩

theorem TableRow.nop : TableRow.Statement .nop :=
  ⟨accessRows[9], List.getElem_mem _, rfl, by decide⟩

theorem TableRow.start : TableRow.Statement .start :=
  ⟨accessRows[10], List.getElem_mem _, rfl, by decide⟩

theorem TableRow.clear : TableRow.Statement .clear :=
  ⟨accessRows[11], List.getElem_mem _, rfl, by decide⟩

theorem TableRow.ctrlRsvd (data : Word) : TableRow.Statement (.ctrlRsvd data) :=
  ⟨accessRows[20], List.getElem_mem _, rfl, takes_of_fieldMask data rfl rfl⟩

theorem TableRow.wrStatus (data : Word) : TableRow.Statement (.wrStatus data) :=
  ⟨accessRows[12], List.getElem_mem _, rfl, takes_of_fieldMask data rfl rfl⟩

theorem TableRow.wrTemp (data : Word) : TableRow.Statement (.wrTemp data) :=
  ⟨accessRows[13], List.getElem_mem _, rfl, takes_of_fieldMask data rfl rfl⟩

theorem TableRow.wrHum (data : Word) : TableRow.Statement (.wrHum data) :=
  ⟨accessRows[14], List.getElem_mem _, rfl, takes_of_fieldMask data rfl rfl⟩

theorem TableRow.wrPollUs (data : Word) : TableRow.Statement (.wrPollUs data) :=
  ⟨accessRows[15], List.getElem_mem _, rfl, takes_of_fieldMask data rfl rfl⟩

theorem TableRow.wrBudget (data : Word) : TableRow.Statement (.wrBudget data) :=
  ⟨accessRows[16], List.getElem_mem _, rfl, takes_of_fieldMask data rfl rfl⟩

theorem TableRow.wrBitidx (data : Word) : TableRow.Statement (.wrBitidx data) :=
  ⟨accessRows[17], List.getElem_mem _, rfl, takes_of_fieldMask data rfl rfl⟩

theorem TableRow.wrUnmapped7 (data : Word) : TableRow.Statement (.wrUnmapped7 data) :=
  ⟨accessRows[18], List.getElem_mem _, rfl, takes_of_fieldMask data rfl rfl⟩

theorem TableRow.wrUnmapped8F (lo : BitVec 3) (data : Word) : TableRow.Statement (.wrUnmapped8F lo data) :=
  ⟨accessRows[19], List.getElem_mem _, rfl, takes_of_halfMask data rfl (by rw [upperHalf_and]; rfl)⟩

theorem TableRow.idle : TableRow.Statement .idle :=
  List.mem_of_elem_eq_true rfl

theorem TableRow.rstLow : TableRow.Statement .rstLow :=
  List.mem_of_elem_eq_true rfl

theorem TableRow.relWait : TableRow.Statement .relWait :=
  List.mem_of_elem_eq_true rfl

theorem TableRow.presLow : TableRow.Statement .presLow :=
  List.mem_of_elem_eq_true rfl

theorem TableRow.presHigh : TableRow.Statement .presHigh :=
  List.mem_of_elem_eq_true rfl

theorem TableRow.presOk : TableRow.Statement .presOk :=
  List.mem_of_elem_eq_true rfl

theorem TableRow.bitWaitHigh : TableRow.Statement .bitWaitHigh :=
  List.mem_of_elem_eq_true rfl

theorem TableRow.bitSettle : TableRow.Statement .bitSettle :=
  List.mem_of_elem_eq_true rfl

theorem TableRow.bitWaitLow : TableRow.Statement .bitWaitLow :=
  List.mem_of_elem_eq_true rfl

theorem TableRow.frameComplete : TableRow.Statement .frameComplete :=
  List.mem_of_elem_eq_true rfl

theorem TableRow.timedOut : TableRow.Statement .timedOut :=
  List.mem_of_elem_eq_true rfl

end Sys2Proof.Laws
end

