-- ==== Sys2Proof/Tests/Slice0.lean ====
section
/-! SUPPORT. The model's own tests: expected values from 95_test_vectors.md and the rules' examples, each named in its
comment; then one witness per statement with hypotheses. -/

namespace Sys2Proof.Tests

open Sys2Proof.Machine Sys2Proof.Safety

/-! ## Helpers -/

/-- The reset machine with this block. -/
def withBlock (b : Block) : State := { State.reset with blk := b }

/-- A block in this phase with this timer, otherwise as after Reset. -/
def inPhase (p : Phase) (timer : Nat) : Block := { Block.reset with phase := p, timer := BitVec.ofNat 32 timer }

/-- A machine in this phase with this timer whose line is at this level. -/
def onLine (p : Phase) (timer : Nat) (level : Level) : State := { withBlock (inPhase p timer) with line := level }

/-- A machine one Tick before its 40th slot ends, holding this frame. -/
def beforeEnd (f : Frame) : State :=
  { withBlock { inPhase .bitWaitLow 0 with bitidx := 40, frame := f } with line := false }

/-- The block after an operation. -/
def blockOf (r : Result) : Option Block :=
  match r with
  | .next t => some t.blk
  | .fault _ => none
  | .refused _ => none

/-- STATUS after an operation. -/
def statusOf (r : Result) : Option Word := (blockOf r).map Block.status

/-- The value on the host port after an operation. -/
def readOf (r : Result) : Option Word :=
  match r with
  | .next t => some t.rdata
  | .fault _ => none
  | .refused _ => none

/-- One access word, given as a number. -/
def access (w : Nat) (s : State) : Result := perform (.access (BitVec.ofNat 21 w)) s

/-- The source's frame, corrected (L1-5, V-C2). -/
def goodFrame : Frame :=
  { humidityHigh := 0x02, humidityLow := 0x8C, temperatureHigh := 0x01, temperatureLow := 0x11, checksum := 0xA0 }

/-- The source's frame as printed (V-C3). -/
def badFrame : Frame := { goodFrame with checksum := 0x9E }

/-- The block after program P1. -/
def afterP1 : Block :=
  { Block.reset with phase := .frameComplete, bitidx := 40, temp := 27, hum := 160, haveReading := true }

/-! ## WellFormed: each check refuses an ill-formed term -/

theorem test_wellFormed_refuses_reserved_nop : (Instr.ctrlRsvd 0x0000).wellFormed = false := by decide
theorem test_wellFormed_refuses_reserved_start : (Instr.ctrlRsvd 0x0001).wellFormed = false := by decide
theorem test_wellFormed_refuses_reserved_clear : (Instr.ctrlRsvd 0x0002).wellFormed = false := by decide
theorem test_wellFormed_takes_reserved : (Instr.ctrlRsvd 0x0003).wellFormed = true := by decide

/-! ## Decode: each constructor's word, written out from R80: RW, ADDR, DATA -/

theorem test_decode_reads :
    decodeAccess 0b0_0000_0000000000000000#21 = .rdCtrl 0 ∧ decodeAccess 0b0_0001_0000000000000000#21 = .rdStatus 0 ∧
    decodeAccess 0b0_0010_0000000000000000#21 = .rdTemp 0 ∧ decodeAccess 0b0_0011_0000000000000000#21 = .rdHum 0 ∧
    decodeAccess 0b0_0100_0000000000000000#21 = .rdPollUs 0 ∧ decodeAccess 0b0_0101_0000000000000000#21 = .rdBudget 0 ∧
    decodeAccess 0b0_0110_0000000000000000#21 = .rdBitidx 0 ∧
    decodeAccess 0b0_0111_0000000000000000#21 = .rdUnmapped7 0 ∧
    decodeAccess 0b0_1111_0000000000000000#21 = .rdUnmapped8F 7 0 := by decide

theorem test_decode_commands :
    decodeAccess 0b1_0000_0000000000000000#21 = .nop ∧ decodeAccess 0b1_0000_0000000000000001#21 = .start ∧
    decodeAccess 0b1_0000_0000000000000010#21 = .clear ∧
    decodeAccess 0b1_0000_0000000000000011#21 = .ctrlRsvd 3 := by decide

theorem test_decode_writes :
    decodeAccess 0b1_0001_1111111111111111#21 = .wrStatus 0xFFFF ∧
    decodeAccess 0b1_0010_0000000000000101#21 = .wrTemp 5 ∧ decodeAccess 0b1_0011_0000000000000101#21 = .wrHum 5 ∧
    decodeAccess 0b1_0100_0000000000000010#21 = .wrPollUs 2 ∧
    decodeAccess 0b1_0101_0000000000111100#21 = .wrBudget 60 ∧
    decodeAccess 0b1_0110_0000000000100111#21 = .wrBitidx 39 ∧
    decodeAccess 0b1_0111_0000000000000001#21 = .wrUnmapped7 1 ∧
    decodeAccess 0b1_1000_0000000000000001#21 = .wrUnmapped8F 0 1 := by decide

theorem test_decode_phases :
    decodePhase 0b0000#4 = .ok .idle ∧ decodePhase 0b0001#4 = .ok .rstLow ∧ decodePhase 0b0010#4 = .ok .relWait ∧
    decodePhase 0b0011#4 = .ok .presLow ∧ decodePhase 0b0100#4 = .ok .presHigh ∧ decodePhase 0b0101#4 = .ok .presOk ∧
    decodePhase 0b0110#4 = .ok .bitWaitHigh ∧ decodePhase 0b0111#4 = .ok .bitSettle ∧
    decodePhase 0b1000#4 = .ok .bitWaitLow ∧ decodePhase 0b1001#4 = .ok .frameComplete ∧
    decodePhase 0b1010#4 = .ok .timedOut ∧ decodePhase 0b1011#4 = .error (.reservedPhaseCode 11) := by decide

/-- V-H30: a read with DATA ≠ 0 is the same read (R85). -/
theorem test_decode_read_with_data : readOf (access 0x01ABCD State.reset) = some 0x0000 := by decide

theorem test_tableWord_formats :
    decodeTableWord 8 0xA = some .timedOut ∧ decodeTableWord 8 0xB = none ∧
    decodeTableWord 24 0x100001 = some .start ∧ decodeTableWord 24 0x200000 = none := by decide

/-- R86's examples: START is 0x100001, RD STATUS is 0x010000, written with 6 hex digits. -/
theorem test_assembler_words :
    AsmLine.start.word = 0x100001#21 ∧ (AsmLine.rd .status).word = 0x010000#21 ∧
    hexDigits AsmLine.start.word = [1, 0, 0, 0, 0, 1] ∧ (AsmLine.wr .budget 60).word = 0x15003C#21 := by decide

/-! ## Host accesses (95_test_vectors.md section 4.2) -/

/-- V-H1, V-H9, V-H10. -/
theorem test_rd_constant :
    readOf (access 0x000000 (withBlock afterP1)) = some 0 ∧ readOf (access 0x070000 (withBlock afterP1)) = some 0 ∧
    readOf (access 0x0F0000 (withBlock afterP1)) = some 0 := by decide

/-- V-H2; program P1 line 5 reads 0x0646. -/
theorem test_rd_status :
    readOf (access 0x010000 State.reset) = some 0x0000 ∧
    readOf (access 0x010000 (withBlock afterP1)) = some 0x0646 := by decide

/-- Program P1 lines 6 to 8, V-H5. -/
theorem test_rd_reading :
    readOf (access 0x020000 (withBlock afterP1)) = some 0x001B ∧
    readOf (access 0x030000 (withBlock afterP1)) = some 0x00A0 ∧
    readOf (access 0x060000 (withBlock afterP1)) = some 0x0028 := by decide

/-- V-H6, V-H7. -/
theorem test_rd_timing :
    readOf (access 0x040000 State.reset) = some 0x0001 ∧ readOf (access 0x050000 State.reset) = some 0x0064 := by decide

/-- V-H11: NOP while busy. -/
theorem test_nop_busy : blockOf (access 0x100000 (onLine .rstLow 20000 true)) = some (inPhase .rstLow 20000) := by decide

/-- V-H12, V-P1. -/
theorem test_start_from_reset :
    statusOf (access 0x100001 State.reset) = some 0x0101 ∧
    (blockOf (access 0x100001 State.reset)).map Block.timer = some 20000 := by decide

/-- V-H13: STATUS 0x0181, phase and timer unchanged. -/
theorem test_start_busy :
    statusOf (access 0x100001 (onLine .rstLow 7 true)) = some 0x0181 ∧
    (blockOf (access 0x100001 (onLine .rstLow 7 true))).map Block.timer = some 7 := by decide

/-- V-H15: CLEAR after program P2 gives 0x0040, BITIDX 0, TEMP kept. -/
theorem test_clear_after_mismatch :
    statusOf (access 0x100002 (withBlock { afterP1 with errcode := .checksumMismatch, failph := .checksum })) =
      some 0x0040 ∧
    (blockOf (access 0x100002 (withBlock afterP1))).map Block.temp = some 27 := by decide

/-- V-H16: CLEAR while busy, 0x0581 becomes 0x0501. -/
theorem test_clear_busy :
    statusOf (access 0x100002 (withBlock { inPhase .bitWaitLow 0 with bitidx := 40, progerr := true })) =
      some 0x0501 := by decide

/-- V-H17. -/
theorem test_reserved_command : statusOf (access 0x100003 State.reset) = some 0x0080 := by decide

/-- V-H19 to V-H21, V-H27 to V-H29. -/
theorem test_ignored_writes :
    blockOf (access 0x11FFFF State.reset) = some Block.reset ∧ blockOf (access 0x120005 (withBlock afterP1)) = some afterP1 ∧
    blockOf (access 0x130005 (withBlock afterP1)) = some afterP1 ∧
    blockOf (access 0x160027 (onLine .bitSettle 3 true)) = some (inPhase .bitSettle 3) ∧
    blockOf (access 0x170001 State.reset) = some Block.reset ∧
    blockOf (access 0x180001 State.reset) = some Block.reset := by decide

/-- V-H22 to V-H24. -/
theorem test_wr_poll_us :
    (blockOf (access 0x140000 State.reset)).map Block.pollUs = some 0x0001 ∧
    (blockOf (access 0x14FFFF State.reset)).map Block.pollUs = some 0xFFFF ∧
    blockOf (access 0x140007 (onLine .rstLow 9 true)) = some { inPhase .rstLow 9 with progerr := true } := by decide

/-- V-H25, V-H26. -/
theorem test_wr_budget :
    (blockOf (access 0x150000 State.reset)).map Block.budget = some 0x0001 ∧
    (blockOf (access 0x15003C State.reset)).map Block.budget = some 0x003C := by decide

/-- SET_TIMING of program P4, then its read-back. -/
theorem test_set_timing :
    (blockOf (performAll ((setTiming 2 60).map AsmLine.event) State.reset)).map
      (fun b => (b.pollUs, b.budget)) = some (2, 60) := by decide

/-! ## Ticks (95_test_vectors.md section 4.3) -/

/-- V-P2, V-P3: the release tick. -/
theorem test_rst_low :
    blockOf (perform (.tick false) (onLine .rstLow 2 true)) = some (inPhase .rstLow 1) ∧
    blockOf (perform (.tick false) (onLine .rstLow 1 true)) = some (inPhase .relWait 39) := by decide

/-- V-P4. -/
theorem test_rel_wait :
    statusOf (perform (.tick true) (onLine .relWait 1 true)) = some 0x0201 ∧
    blockOf (perform (.tick false) (onLine .relWait 39 true)) = some (inPhase .relWait 38) := by decide

/-- V-P5; V-W2: with BUDGET 1 the one low sample fails with STATUS 0x0F1A. -/
theorem test_pres_low :
    blockOf (perform (.tick true) (onLine .presLow 0 true)) = some (inPhase .presHigh 0) ∧
    statusOf (perform (.tick false) (withBlock { inPhase .presLow 0 with budget := 1 })) = some 0x0F1A := by decide

/-- V-P6; V-W3: with BUDGET 1 the one high sample fails with STATUS 0x171A. -/
theorem test_pres_high :
    statusOf (perform (.tick false) (onLine .presHigh 0 true)) = some 0x0301 ∧
    statusOf (perform (.tick true) (withBlock { inPhase .presHigh 0 with budget := 1 })) = some 0x171A := by decide

/-- V-P7. -/
theorem test_pres_ok : statusOf (perform (.tick true) (onLine .presOk 0 true)) = some 0x0401 := by decide

/-- V-W1: with POLL_US 3 a missed sample is followed by the next one 3 ticks later. -/
theorem test_missed_sample :
    blockOf (perform (.tick false) (withBlock { inPhase .presLow 0 with pollUs := 3, budget := 4 })) =
      some { inPhase .presLow 2 with pollUs := 3, budget := 4, polls := 1 } := by decide

/-- V-P8; V-E7: the 100th low sample before bit 20 gives 0x1F2A with BITIDX 20. -/
theorem test_bit_wait_high :
    blockOf (perform (.tick true) (onLine .bitWaitHigh 0 false)) = some (inPhase .bitSettle 30) ∧
    statusOf (perform (.tick false) (withBlock { inPhase .bitWaitHigh 0 with polls := 99, bitidx := 20 })) =
      some 0x1F2A := by decide

/-- V-P12: the 8th bit completes byte 0 as 0x02, STATE is ByteAssembled. -/
theorem test_bit_settle_byte :
    blockOf (perform (.tick false)
        (withBlock { inPhase .bitSettle 1 with bitidx := 7, frame := { Frame.zero with humidityHigh := 0x01 } })) =
      some { inPhase .bitWaitLow 0 with bitidx := 8, frame := { Frame.zero with humidityHigh := 0x02 } } ∧
    statusOf (perform (.tick false) (withBlock { inPhase .bitSettle 1 with bitidx := 7 })) = some 0x0501 := by decide

/-- V-P10; V-E4: the 100th high sample after bit index 16 gives 0x272A with BITIDX 17. -/
theorem test_bit_wait_low :
    statusOf (perform (.tick false) (withBlock { inPhase .bitWaitLow 0 with bitidx := 1 })) = some 0x0401 ∧
    statusOf (perform (.tick true) (withBlock { inPhase .bitWaitLow 0 with polls := 99, bitidx := 17 })) =
      some 0x272A := by decide

/-- V-P15, and V-E9: the source's frame as printed ends in ChecksumMismatch. -/
theorem test_frame_end :
    blockOf (perform (.tick false) (beforeEnd goodFrame)) = some afterP1 ∧
    statusOf (perform (.tick false) (beforeEnd badFrame)) = some 0x2E3A := by decide

/-- V-P16. -/
theorem test_terminal_holds : blockOf (perform (.tick true) (withBlock afterP1)) = some afterP1 := by decide

/-- V-R5: success with PROGERR still set. -/
theorem test_success_with_progerr :
    statusOf (perform (.tick false) (withBlock { (beforeEnd goodFrame).blk with progerr := true })) =
      some 0x06C6 := by decide

/-- V-R2: Reset during a transaction leaves no trace. -/
theorem test_reset_event : blockOf (perform .reset (onLine .presLow 0 true)) = some Block.reset := by decide

/-! ## Checksum and decode (95_test_vectors.md section 4.1) -/

/-- V-C4, V-C5, V-C7. -/
theorem test_checksum :
    ({ humidityHigh := 0xFF, humidityLow := 0xFF, temperatureHigh := 0xFF, temperatureLow := 0xFF,
       checksum := 0xFC } : Frame).checksumOk = true ∧
    ({ humidityHigh := 0xFF, humidityLow := 0xFF, temperatureHigh := 0xFF, temperatureLow := 0xFF,
       checksum := 0xFF } : Frame).checksumOk = false ∧
    ({ Frame.zero with humidityHigh := 0x80, humidityLow := 0x80 } : Frame).checksumOk = true := by decide

/-- V-C8, V-C9. -/
theorem test_decode_values :
    ({ humidityHigh := 0x19, humidityLow := 0x05, temperatureHigh := 0x00, temperatureLow := 0xFF,
       checksum := 0x1D } : Frame).decodeHum = 255 ∧
    ({ humidityHigh := 0x00, humidityLow := 0x00, temperatureHigh := 0x80, temperatureLow := 0x65,
       checksum := 0xE5 } : Frame).decodeTemp = 1381 := by decide

/-! ## The fetch of a placed word -/

theorem test_withFetchWord_access : step (State.reset.withFetchWord 24 0x100001) = exec .start State.reset := by rfl

theorem test_withFetchWord_phase :
    step (State.reset.withFetchWord 8 0x5) = exec .presOk (onLine .presOk 0 true) := by rfl

/-! ## Witnesses: for each statement with hypotheses, a state and operands that meet them together -/

theorem witness_resetEvent : State.reset.cfg.legal = true ∧ (withEvents [.reset] State.reset).events = [.reset] := by decide

theorem witness_stepRuns_access :
    (withEvents [.access 0x100001#21] State.reset).cfg.legal = true ∧ decode (.access 0x100001#21) = .ok .start := by decide

theorem witness_stepRuns_tick :
    (withTicks [true] (onLine .presOk 0 true)).cfg.legal = true ∧
    (withTicks [true] (onLine .presOk 0 true)).events = [.tick true] ∧
    decode (.phase (onLine .presOk 0 true).blk.phase.code) = .ok .presOk := by decide

/-- Each clause of the dispatch table, from IDLE to TIMED_OUT, has a state in its phase with a Tick in store. -/
theorem witness_tickDispatch (p : Phase) :
    (withTicks [true] (onLine p 0 true)).cfg.legal = true ∧ (withTicks [true] (onLine p 0 true)).events = [.tick true] ∧
    (withTicks [true] (onLine p 0 true)).blk.phase = p := ⟨rfl, rfl, rfl⟩

theorem witness_emptyStore : State.reset.cfg.legal = true ∧ State.reset.events = [] := by decide

/-- Each bound of R7, just outside it. -/
theorem witness_illegalBuild :
    ({ Config.Build.standard with tResetUs := 18000 } : Config.Build).legal = false ∧
    ({ Config.Build.standard with tResetUs := 2 ^ 32 } : Config.Build).legal = false ∧
    ({ Config.Build.standard with tReleaseUs := 19 } : Config.Build).legal = false ∧
    ({ Config.Build.standard with tReleaseUs := 41 } : Config.Build).legal = false ∧
    ({ Config.Build.standard with tSettleUs := 0 } : Config.Build).legal = false ∧
    ({ Config.Build.standard with tSettleUs := 2 ^ 16 } : Config.Build).legal = false := by decide

/-- Each bound of R7, just inside it. -/
theorem witness_legalBuild :
    ({ tResetUs := 18001, tReleaseUs := 20, tSettleUs := 1 } : Config.Build).legal = true ∧
    ({ tResetUs := 2 ^ 32 - 1, tReleaseUs := 40, tSettleUs := 2 ^ 16 - 1 } : Config.Build).legal = true := by decide

theorem witness_decodeOfEncode : (Instr.ctrlRsvd 0xFFFF).wellFormed = true := by decide

theorem witness_encodeOfDecode : decode (.phase 10#4) = .ok .timedOut ∧ decode (.access 0x10FFFF#21) = .ok (.ctrlRsvd 0xFFFF) := by
  decide

/-- The reserved codes at both ends of their range, and a row of the opcode table's phase codes. -/
theorem witness_phaseCodes : 11 ≤ (11#4).toNat ∧ 11 ≤ (15#4).toNat ∧ ("TIMED_OUT", 10#4) ∈ phaseRows := by decide

/-- Both ends of the unmapped range. -/
theorem witness_unmappedAddresses : (0x8#4).getLsbD 3 = true ∧ (0xF#4).getLsbD 3 = true ∧ (0x7#4).getLsbD 3 = false := by decide

/-- The clause of R38 for each phase group is met in that phase; in BIT_WAIT_LOW both values of the condition occur. -/
theorem witness_busState :
    ({ inPhase .bitWaitLow 0 with bitidx := 7 } : Block).bitidx.toNat % 8 ≠ 0 ∧
    ({ inPhase .bitWaitLow 0 with bitidx := 8 } : Block).bitidx.toNat % 8 = 0 ∧
    ({ inPhase .bitWaitLow 0 with bitidx := 40 } : Block).bitidx.toNat % 8 = 0 := by decide

/-- The two clauses of R67 on reads of 0x0000, at their ends. -/
theorem witness_zeroReads : 7 ≤ (0x7#4).toNat ∧ 7 ≤ (0xF#4).toNat ∧ ¬ 7 ≤ (0x6#4).toNat := by decide

/-- Both branches of START, CLEAR and the timing writes: the three phases that are not busy, and a busy one. -/
theorem witness_busy_and_free :
    (inPhase .idle 0).busy = false ∧ (inPhase .frameComplete 0).busy = false ∧ (inPhase .timedOut 0).busy = false ∧
    (inPhase .rstLow 1).busy = true ∧ (inPhase .bitWaitLow 0).busy = true := by decide

theorem witness_statusAfterStart :
    State.reset.blk.busy = false ∧ (blockOf (exec .start State.reset)).isSome = true := by decide

theorem witness_reservedCommand : (0x0003 : Word) ≠ 0 ∧ (0x0003 : Word) ≠ 1 ∧ (0x0003 : Word) ≠ 2 := by decide

theorem witness_restingPhases :
    State.reset.cfg.legal = true ∧ State.reset.blk.phase = .idle ∧ afterP1.phase = .frameComplete ∧
    (inPhase .timedOut 0).phase = .timedOut := by decide

theorem witness_timingWrites : State.reset.blk.busy = false ∧ (0 : Word) = 0 ∧ (0xFFFF : Word) ≠ 0 := by decide

theorem witness_setTiming : State.reset.cfg.legal = true ∧ State.reset.blk.busy = false ∧ (2 : Word) ≠ 0 ∧ (60 : Word) ≠ 0 := by
  decide

/-- Both clauses of the timed phases, at the timer values where they meet. -/
theorem witness_timedPhases : (inPhase .rstLow 1).timer = 1 ∧ (inPhase .rstLow 2).timer ≠ 1 := by decide

theorem witness_waitCountDown : ∀ q ∈ waitRows, (inPhase q.phase 1).timer ≠ 0 := by decide

/-- A missed sample, at the last one within the budget of 100. -/
theorem witness_waitMissed : ∀ q ∈ waitRows,
    (onLine q.phase 0 (!q.target)).blk.timer = 0 ∧ (onLine q.phase 0 (!q.target)).line ≠ q.target ∧
    ({ inPhase q.phase 0 with polls := 98 } : Block).polls.toNat + 1 ≠ (inPhase q.phase 0).budget.toNat ∧
    (inPhase q.phase 0).pollUs ≠ 0 := by decide

/-- The missed sample that uses the budget of 100 up. -/
theorem witness_waitFailed : ∀ q ∈ waitRows,
    (onLine q.phase 0 (!q.target)).blk.timer = 0 ∧ (onLine q.phase 0 (!q.target)).line ≠ q.target ∧
    ({ inPhase q.phase 0 with polls := 99 } : Block).polls.toNat + 1 = (inPhase q.phase 0).budget.toNat := by decide

/-- Each clause of the wait phases' successes; for BIT_WAIT_LOW the last bit index before completion. -/
theorem witness_waitSuccess :
    (onLine .presLow 0 true).blk.timer = 0 ∧ (onLine .presLow 0 true).line = true ∧
    (onLine .presHigh 0 false).line = false ∧
    ({ inPhase .bitWaitLow 0 with bitidx := 39 } : Block).bitidx ≠ 40 := by decide

/-- Both clauses of BIT_SETTLE, at the last bit index. -/
theorem witness_bitSettle :
    ({ inPhase .bitSettle 1 with bitidx := 39 } : Block).timer = 1 ∧
    ({ inPhase .bitSettle 1 with bitidx := 39 } : Block).bitidx.toNat < 40 ∧ (inPhase .bitSettle 30).timer ≠ 1 := by decide

/-- A good frame (V-C2) and a bad one (V-C3) at the end of the 40th slot. -/
theorem witness_frameEnd :
    (beforeEnd goodFrame).blk.timer = 0 ∧ (beforeEnd goodFrame).line = false ∧ (beforeEnd goodFrame).blk.bitidx = 40 ∧
    ((frameByte goodFrame 0).toNat + (frameByte goodFrame 1).toNat + (frameByte goodFrame 2).toNat +
      (frameByte goodFrame 3).toNat) % 256 = (frameByte goodFrame 4).toNat ∧
    ((frameByte badFrame 0).toNat + (frameByte badFrame 1).toNat + (frameByte badFrame 2).toNat +
      (frameByte badFrame 3).toNat) % 256 ≠ (frameByte badFrame 4).toNat := by decide

/-- The guard's condition, at the first bit index beyond the frame. -/
theorem witness_sampleBeyondFrame :
    ({ inPhase .bitSettle 1 with bitidx := 40 } : Block).timer = 1 ∧
    40 ≤ ({ inPhase .bitSettle 1 with bitidx := 40 } : Block).bitidx.toNat := by decide

theorem witness_engineFrame : Instr.presLow.isAccess = false ∧ (blockOf (exec .presLow (onLine .presLow 0 true))).isSome = true := by
  decide

theorem witness_busyAccess :
    (onLine .rstLow 5 true).blk.busy = true ∧ (blockOf (perform (.access 0x140007#21) (onLine .rstLow 5 true))).isSome = true ∧
    (blockOf (perform (.tick true) (onLine .rstLow 5 true))).isSome = true := by decide

theorem witness_readingChanges : (blockOf (exec .bitWaitLow (beforeEnd goodFrame))).map Block.haveReading = some true := by decide

/-- PROGERR goes up, and down again. -/
theorem witness_progerr :
    (inPhase .rstLow 5).progerr = false ∧ (inPhase .rstLow 5).busy = true ∧
    (blockOf (exec .start (onLine .rstLow 5 true))).map Block.progerr = some true ∧
    (blockOf (exec .clear (withBlock { Block.reset with progerr := true }))).map Block.progerr = some false := by decide

/-- START and CLEAR move the sequencer; a timing write changes its register. -/
theorem witness_sequencerMoves :
    Instr.start.isAccess = true ∧ (blockOf (exec .start State.reset)).map Block.phase = some .rstLow ∧
    (blockOf (exec .clear (withBlock afterP1))).map Block.phase = some .idle ∧
    (blockOf (exec (.wrPollUs 2) State.reset)).map Block.pollUs = some 2 ∧
    (blockOf (exec (.wrBudget 2) State.reset)).map Block.budget = some 2 := by decide

theorem witness_lineDriven :
    (inPhase .rstLow 1).phase = .rstLow ∧ (inPhase .relWait 1).phase ≠ .rstLow ∧
    (blockOf (exec .start State.reset)).map Block.lineMode = some true ∧
    (blockOf (exec .rstLow (onLine .rstLow 1 true))).map Block.lineMode = some false := by decide

/-- A wait phase between samples, and BIT_SETTLE before its last tick. -/
theorem witness_lineIgnored :
    samplesLine (inPhase .presLow 1) = false ∧ samplesLine (inPhase .bitSettle 2) = false ∧
    (blockOf (perform (.tick true) (onLine .presLow 1 true))).isSome = true ∧
    (blockOf (perform (.tick false) (onLine .bitSettle 2 true))).isSome = true := by decide

/-- A machine that meets the invariant, with a transaction in flight. -/
def inFlight : State := withBlock (inPhase .rstLow 20000)

theorem inFlight_inv : Inv inFlight := by
  refine ⟨by decide, ?_⟩
  have h : BlockInv Config.Build.standard (Block.reset.begin Config.Build.standard) :=
    Laws.begin_keeps (by decide) (Laws.reset_blockInv _)
  exact h

theorem witness_stepKeepsInv : Inv inFlight ∧ (blockOf (step inFlight)).isSome = true := ⟨inFlight_inv, by rfl⟩

theorem witness_reachable :
    Config.Build.standard.legal = true ∧
    runs 1 { State.reset with cfg := Config.Build.standard, events := [.access 0x100001#21] }
      (withBlock (inPhase .rstLow 20000)) := ⟨by decide, rfl⟩

/-- A machine that meets the invariant and ends its transaction on the next Tick. -/
def lastChance : State :=
  withTicks [false] (withBlock { inPhase .presLow 0 with budget := 1 })

theorem lastChance_inv : Inv lastChance := by
  refine ⟨by decide, ⟨⟨?_, ?_, ?_, ?_, ?_, ?_, ?_, ?_, ?_, ?_, ?_⟩, ?_, ?_, ?_, ?_, ?_, ?_, ?_, ?_, ?_⟩⟩ <;>
    simp [lastChance, withTicks, withEvents, withBlock, inPhase, Block.reset, isTimed, Phase.isWait, Phase.isBit]

theorem witness_outcome :
    Inv lastChance ∧ lastChance.blk.busy = true ∧ lastChance.events.head? ≠ some .reset ∧
    (blockOf (step lastChance)).map Block.busy = some false := ⟨lastChance_inv, by decide, by decide, by decide⟩

/-- A wait phase just entered, with POLL_US 3 and BUDGET 4: six ticks of missed samples, then all ten (V-W1). -/
theorem witness_waitRuns : ∀ q ∈ waitRows, ∀ b : Block, b = { inPhase q.phase 0 with pollUs := 3, budget := 4 } →
    State.reset.cfg.legal = true ∧ b.phase = q.phase ∧ b.timer = 0 ∧ b.polls = 0 ∧ 1 ≤ b.pollUs.toNat ∧
    1 ≤ b.budget.toNat ∧ (List.replicate 6 (!q.target)).length ≤ (b.budget.toNat - 1) * b.pollUs.toNat ∧
    (List.replicate 10 (!q.target)).length = (b.budget.toNat - 1) * b.pollUs.toNat + 1 ∧
    ∀ j < 10, (List.replicate 10 (!q.target))[j]? = some (!q.target) := by
  intro q _ b hb
  subst hb
  refine ⟨rfl, rfl, rfl, rfl, by simp, by simp, by simp, by simp, fun j hj => ?_⟩
  rw [List.getElem?_replicate, if_pos hj]

/-- An accepted START, and the three clauses at tick 0, at the release tick and at the first presence sample. -/
theorem witness_resetPulse :
    State.reset.cfg.legal = true ∧ State.reset.blk.busy = false ∧ exec .start State.reset = .next inFlight ∧
    0 < State.reset.cfg.tResetUs ∧ State.reset.cfg.tResetUs < State.reset.cfg.tResetUs + State.reset.cfg.tReleaseUs - 1 ∧
    State.reset.cfg.tResetUs + State.reset.cfg.tReleaseUs - 1 <
      State.reset.cfg.tResetUs + State.reset.cfg.tReleaseUs := by
  refine ⟨by decide, by decide, rfl, by decide, by decide, by decide⟩

theorem witness_settleWindow :
    State.reset.cfg.legal = true ∧ (inPhase .bitSettle 30).phase = .bitSettle ∧
    (inPhase .bitSettle 30).timer.toNat = State.reset.cfg.tSettleUs ∧ (inPhase .bitSettle 30).bitidx.toNat < 40 ∧
    (List.replicate 29 true).length + 1 = State.reset.cfg.tSettleUs := by decide

theorem witness_shorterTransaction :
    Inv inFlight ∧ inFlight.blk.busy = true ∧ (blockOf (perform (.tick true) inFlight)).isSome = true :=
  ⟨inFlight_inv, by decide, by decide⟩

/-- A machine that meets the invariant and accepts START: TIMED_OUT after a stuck-low line. -/
def ended : State := withBlock { inPhase .timedOut 0 with errcode := .noPresence, failph := .presLow }

theorem ended_inv : Inv ended := by
  refine ⟨by decide, ⟨⟨?_, ?_, ?_, ?_, ?_, ?_, ?_, ?_, ?_, ?_, ?_⟩, ?_, ?_, ?_, ?_, ?_, ?_, ?_, ?_, ?_⟩⟩ <;>
    simp [ended, withBlock, inPhase, Block.reset, isTimed, Phase.isWait, Phase.isBit]

/-- T_max with the defaults is R156's 29440. -/
theorem witness_tMax :
    Inv ended ∧ ended.blk.busy = false ∧ exec .start ended = .next inFlight ∧
    (List.replicate 29440 false).length = tMax inFlight.cfg inFlight.blk :=
  ⟨ended_inv, rfl, rfl, List.length_replicate.trans (by decide)⟩

/-- T_min_ok with the defaults is R156's 21322; both clauses are met one tick after START. -/
theorem witness_tMin :
    Inv ended ∧ ended.blk.busy = false ∧ exec .start ended = .next inFlight ∧ tMinOk inFlight.cfg = 21322 ∧
    runs 1 (withTicks [true] inFlight) (onLine .rstLow 19999 true) ∧
    1 < inFlight.cfg.tResetUs + inFlight.cfg.tReleaseUs ∧ 1 < tMinOk inFlight.cfg :=
  ⟨ended_inv, rfl, rfl, by decide, rfl, by decide, by decide⟩

/-- PRES_OK in a build with the shortest settle window. -/
def presenceSeen : State :=
  { onLine .presOk 0 true with cfg := { tResetUs := 18001, tReleaseUs := 20, tSettleUs := 1 } }

theorem presenceSeen_inv : Inv presenceSeen := by
  refine ⟨by decide, ⟨⟨?_, ?_, ?_, ?_, ?_, ?_, ?_, ?_, ?_, ?_, ?_⟩, ?_, ?_, ?_, ?_, ?_, ?_, ?_, ?_, ?_⟩⟩ <;>
    simp [presenceSeen, onLine, withBlock, inPhase, Block.reset, isTimed, Phase.isWait, Phase.isBit]

/-- One Tick of presence, then for each bit a high, the bit and a low; the last low is not taken. -/
def slots (bits : List Level) : List Level := true :: (bits.flatMap fun b => [true, b, false]).dropLast

/-- The bits of the source's frame, corrected, most significant first (L1-5). -/
def goodBits : List Level :=
  [false, false, false, false, false, false, true, false, true, false, false, false, true, true, false, false,
   false, false, false, false, false, false, false, true, false, false, false, true, false, false, false, true] ++
  [true, false, true, false, false, false, false, false]

set_option maxRecDepth 8192 in
theorem witness_frameSpelled :
    Inv presenceSeen ∧ presenceSeen.blk.phase = .presOk ∧
    runs (slots goodBits).length (withTicks (slots goodBits) presenceSeen)
      { presenceSeen with blk := { inPhase .bitWaitLow 0 with bitidx := 40, frame := goodFrame }, line := false } :=
  ⟨presenceSeen_inv, rfl, rfl⟩

end Sys2Proof.Tests
end

section
/-! SUPPORT. STATUS, BusState and the line outputs, each as a function of the block (R36 to R38, R41). -/

namespace Sys2Proof.Machine

/-! ## STATUS (R37) -/

/-- The bits of STATUS, bit 0 first; above FAILPH it reads 0 because FAILPH has no bit 3 (R37). -/
theorem Block.status_getLsbD (b : Block) {i : Nat} (hi : i < 16) :
    b.status.getLsbD i =
      if i < 1 then b.busy
      else if i < 2 then b.done
      else if i < 3 then b.ok
      else if i < 4 then b.err
      else if i < 6 then b.errcode.code.getLsbD (i - 4)
      else if i < 7 then b.haveReading
      else if i < 8 then b.progerr
      else if i < 11 then b.busState.code.getLsbD (i - 8)
      else b.failph.code.getLsbD (i - 11) := by
  -- The width is written out as the sum of the fields' widths, the shape `getLsbD_append` asks for.
  have hw : b.status.getLsbD i = BitVec.getLsbD (w := 2 + 3 + 3 + 1 + 1 + 2 + 1 + 1 + 1 + 1) b.status i := rfl
  rw [hw, Block.status]
  simp only [BitVec.getLsbD_append, BitVec.getLsbD_ofBool]
  interval_cases i <;> simp

/-- A field of STATUS is known when its bits are. -/
theorem Block.status_extractLsb'_eq (b : Block) {k n : Nat} {x : BitVec n}
    (h : ∀ i < n, b.status.getLsbD (k + i) = x.getLsbD i) : b.status.extractLsb' k n = x := by
  refine BitVec.eq_of_getLsbD_eq fun i hi => ?_
  rw [BitVec.getLsbD_extractLsb', decide_eq_true hi, Bool.true_and, h i hi]

theorem Block.status_errcode (b : Block) : b.status.extractLsb' 4 2 = b.errcode.code := by
  refine b.status_extractLsb'_eq fun i hi => ?_
  rw [b.status_getLsbD (by omega)]
  interval_cases i <;> rfl

theorem Block.status_state (b : Block) : b.status.extractLsb' 8 3 = b.busState.code := by
  refine b.status_extractLsb'_eq fun i hi => ?_
  rw [b.status_getLsbD (by omega)]
  interval_cases i <;> rfl

theorem Block.status_failph (b : Block) : b.status.extractLsb' 11 3 = b.failph.code := by
  refine b.status_extractLsb'_eq fun i hi => ?_
  rw [b.status_getLsbD (by omega)]
  interval_cases i <;> rfl

theorem Block.status_reserved (b : Block) : b.status.extractLsb' 14 2 = 0#2 := by
  refine b.status_extractLsb'_eq fun i hi => ?_
  rw [b.status_getLsbD (by omega)]
  interval_cases i <;> simp

/-- DONE is: a terminal phase (R37). -/
theorem Block.done_iff (b : Block) : b.done = true ↔ b.phase = .frameComplete ∨ b.phase = .timedOut := by
  unfold Block.done
  cases b.phase <;> simp [Phase.isTerminal]

/-- ERR is: an error is recorded (R37, R203). -/
theorem Block.err_iff (b : Block) : b.err = true ↔ b.errcode ≠ .none := by simp [Block.err]

/-- OK is: done, and no error recorded (R37). -/
theorem Block.ok_iff (b : Block) : b.ok = true ↔ b.done = true ∧ b.errcode = .none := by simp [Block.ok, Block.err]

/-! ## BusState (R38) -/

/-- A BusState fixes its code. -/
theorem Block.busState_and_code {b : Block} {st : BusState} (h : b.busState = st) :
    b.busState = st ∧ b.busState.code = st.code := ⟨h, congrArg BusState.code h⟩

/-- In BIT_WAIT_LOW off a byte boundary, BusState is BitSync of the bit just sampled (R38). -/
theorem Block.busState_bitWaitLow_within {b : Block} (hp : b.phase = .bitWaitLow) (hi : b.bitidx.toNat % 8 ≠ 0) :
    b.busState = .bitSync (b.bitidx.toNat - 1) := by
  simp [Block.busState, hp, hi]

/-- In BIT_WAIT_LOW on a byte boundary, BusState is ByteAssembled of the byte just filled (R38). -/
theorem Block.busState_bitWaitLow_boundary {b : Block} (hp : b.phase = .bitWaitLow) (hi : b.bitidx.toNat % 8 = 0) :
    b.busState = .byteAssembled (b.bitidx.toNat / 8 - 1) := by
  simp [Block.busState, hp, hi]

/-! ## The line outputs (R41) -/

theorem Block.line_driven {b : Block} (h : b.phase = .rstLow) : b.lineMode = true ∧ b.lineOut = false := by
  simp [Block.lineMode, Block.lineOut, h]

theorem Block.line_released {b : Block} (h : b.phase ≠ .rstLow) : b.lineMode = false ∧ b.lineOut = true := by
  unfold Block.lineMode Block.lineOut
  cases hp : b.phase <;> simp_all

end Sys2Proof.Machine
end

section
/-! SUPPORT. What one operation and one step can do: the effects of a host access, the engine's frame, and the events. -/

namespace Sys2Proof.Machine

/-! ## Host accesses -/

/-- The three programming errors of R34: a START while busy, a reserved command, a timing write while busy. -/
def IsProgError (i : Instr) (b : Block) : Prop :=
  (i = .start ∧ b.busy = true) ∨ (∃ d, i = .ctrlRsvd d) ∨ (∃ d, (i = .wrPollUs d ∨ i = .wrBudget d) ∧ b.busy = true)

/-- A guarded write while busy (R34). -/
theorem hostWrite_whenNotBusy_busy {s : State} (f : Block → Block) (hb : s.blk.busy = true) :
    hostWrite (Block.whenNotBusy f) s = .next (s.onBlock Block.progError) := by
  simp only [hostWrite, State.onBlock, whenNotBusy_busy f hb]

/-- A guarded write while not busy. -/
theorem hostWrite_whenNotBusy_free {s : State} (f : Block → Block) (hb : s.blk.busy = false) :
    hostWrite (Block.whenNotBusy f) s = .next (s.onBlock f) := by
  simp only [hostWrite, State.onBlock, whenNotBusy_free f hb]

/-- A programming error sets PROGERR and changes nothing else (R34). -/
theorem exec_of_isProgError {i : Instr} {s : State} (h : IsProgError i s.blk) :
    exec i s = .next (s.onBlock Block.progError) := by
  obtain ⟨rfl, hb⟩ | ⟨d, rfl⟩ | ⟨d, rfl | rfl, hb⟩ := h
  · exact hostWrite_whenNotBusy_busy _ hb
  · rfl
  · exact hostWrite_whenNotBusy_busy _ hb
  · exact hostWrite_whenNotBusy_busy _ hb

/-- Everything a host access can do to the machine (R100 to R121). -/
inductive AccessEffect (s : State) : Instr → State → Prop where
  /-- A read returns a value (R101 to R109). -/
  | read (i : Instr) (v : Word) : AccessEffect s i { s with rdata := v }
  /-- NOP and the ignored writes (R110, R114 to R116, R119 to R121). -/
  | ignored (i : Instr) : AccessEffect s i s
  /-- A programming error (R34). -/
  | rejected {i : Instr} (h : IsProgError i s.blk) : AccessEffect s i (s.onBlock Block.progError)
  /-- An accepted START (R111). -/
  | begun (hb : s.blk.busy = false) : AccessEffect s .start (s.onBlock (Block.begin s.cfg))
  /-- CLEAR while busy (R112). -/
  | clearedBusy (hb : s.blk.busy = true) : AccessEffect s .clear (s.onBlock Block.clearProgerr)
  /-- CLEAR while not busy (R112). -/
  | clearedFree (hb : s.blk.busy = false) : AccessEffect s .clear (s.onBlock fun b => b.clearProgerr.toIdle)
  /-- An accepted write to POLL_US (R117). -/
  | pollUsSet (hb : s.blk.busy = false) (d : Word) :
      AccessEffect s (.wrPollUs d) (s.onBlock fun b => { b with pollUs := legalTiming d })
  /-- An accepted write to BUDGET (R118). -/
  | budgetSet (hb : s.blk.busy = false) (d : Word) :
      AccessEffect s (.wrBudget d) (s.onBlock fun b => { b with budget := legalTiming d })

/-- A programming error completes as one. -/
theorem exec_rejected {i : Instr} {s : State} (h : IsProgError i s.blk) :
    ∃ t, exec i s = .next t ∧ AccessEffect s i t := ⟨_, exec_of_isProgError h, .rejected h⟩

/-- Every host access completes, with one of the listed effects. -/
theorem exec_access {i : Instr} (hi : i.isAccess = true) (s : State) : ∃ t, exec i s = .next t ∧ AccessEffect s i t := by
  cases i with
  | rdCtrl | rdStatus | rdTemp | rdHum | rdPollUs | rdBudget | rdBitidx | rdUnmapped7 | rdUnmapped8F =>
    exact ⟨_, rfl, .read _ _⟩
  | nop | wrStatus | wrTemp | wrHum | wrBitidx | wrUnmapped7 | wrUnmapped8F => exact ⟨_, rfl, .ignored _⟩
  | ctrlRsvd d => exact exec_rejected (.inr (.inl ⟨d, rfl⟩))
  | start =>
    cases hb : s.blk.busy with
    | true => exact exec_rejected (.inl ⟨rfl, hb⟩)
    | false => exact ⟨_, hostWrite_whenNotBusy_free _ hb, .begun hb⟩
  | wrPollUs d =>
    cases hb : s.blk.busy with
    | true => exact exec_rejected (.inr (.inr ⟨d, .inl rfl, hb⟩))
    | false => exact ⟨_, hostWrite_whenNotBusy_free _ hb, .pollUsSet hb d⟩
  | wrBudget d =>
    cases hb : s.blk.busy with
    | true => exact exec_rejected (.inr (.inr ⟨d, .inr rfl, hb⟩))
    | false => exact ⟨_, hostWrite_whenNotBusy_free _ hb, .budgetSet hb d⟩
  | clear =>
    cases hb : s.blk.busy with
    | true => exact ⟨_, by simp [exec, execClear, hostWrite, State.onBlock, hb], .clearedBusy hb⟩
    | false => exact ⟨_, by simp [exec, execClear, hostWrite, State.onBlock, hb], .clearedFree hb⟩
  | idle | rstLow | relWait | presLow | presHigh | presOk | bitWaitHigh | bitSettle | bitWaitLow | frameComplete
  | timedOut => cases hi

/-- What a completed host access did. -/
theorem accessEffect_of_exec {i : Instr} {s t : State} (hi : i.isAccess = true) (h : exec i s = .next t) :
    AccessEffect s i t := by
  obtain ⟨u, hu, he⟩ := exec_access hi s
  obtain rfl : t = u := by simpa [h] using hu
  exact he

/-- CLEAR leaves PROGERR 0 (R112). -/
theorem exec_clear_progerr {s t : State} (h : exec .clear s = .next t) : t.blk.progerr = false := by
  obtain rfl : _ = t := by simpa [exec, execClear, hostWrite] using h
  simp only [State.onBlock_blk]
  split <;> rfl

/-- An access word decodes to a host access (R81). -/
theorem isAccess_decodeAccess (w : AccessWord) : (decodeAccess w).isAccess = true := by
  have hread (addr : Addr) (data : Word) : (decodeRead addr data).isAccess = true := by
    unfold decodeRead
    split <;> rfl
  have hcommand (data : Word) : (decodeCommand data).isAccess = true := by
    unfold decodeCommand
    split_ifs <;> rfl
  have hwrite (addr : Addr) (data : Word) : (decodeWrite addr data).isAccess = true := by
    unfold decodeWrite
    split
    · exact hcommand data
    all_goals rfl
  unfold decodeAccess
  split
  · exact hwrite _ _
  · exact hread _ _

/-! ## The engine's frame (R140) -/

/-- The part of the block that is the host's alone: POLL_US, BUDGET and PROGERR. -/
def Block.hostSettings (b : Block) : Word × Word × Bool := (b.pollUs, b.budget, b.progerr)

theorem Block.timedStep_hostSettings {onLast : Block → Block} {b : Block}
    (hlast : (onLast b).hostSettings = b.hostSettings) : (b.timedStep onLast).hostSettings = b.hostSettings := by
  obtain ⟨-, e⟩ | ⟨-, e⟩ := timedStep_cases onLast b <;> rw [e]
  · exact hlast
  · rfl

theorem Block.waitStep_hostSettings {onSuccess : Block → Block} {b : Block} (target : Level) (code : ErrCode)
    (fp : FailPoint) (line : Level) (hs : (onSuccess b).hostSettings = b.hostSettings) :
    (b.waitStep target code fp onSuccess line).hostSettings = b.hostSettings := by
  obtain ⟨-, e⟩ | ⟨-, -, e⟩ | ⟨-, -, -, e⟩ | ⟨-, -, -, e⟩ := waitStep_cases target code fp onSuccess line b <;> rw [e]
  · rfl
  · exact hs
  · rfl
  · rfl

theorem Block.complete_hostSettings (b : Block) : b.complete.hostSettings = b.hostSettings := by
  obtain ⟨-, e⟩ | ⟨-, e⟩ := complete_cases b <;> rw [e] <;> rfl

/-- BIT_SETTLE counts down, samples its bit, or stops where the frame has no such byte (R150). -/
theorem execBitSettle_cases (s : State) :
    (s.blk.timer ≠ 1 ∧ execBitSettle s = .next (s.onBlock Block.countDown)) ∨
    (s.blk.timer = 1 ∧ s.blk.bitidx.toNat < 40 ∧ ∃ f, s.blk.frame.shiftInto (s.blk.bitidx.toNat / 8) s.line = some f ∧
      execBitSettle s = .next (s.onBlock fun b =>
        { b with frame := f, bitidx := b.bitidx + 1, phase := .bitWaitLow, polls := 0, timer := 0 })) ∨
    (s.blk.timer = 1 ∧ 40 ≤ s.blk.bitidx.toNat ∧ execBitSettle s = .fault .frameIndexOutOfRange) := by
  by_cases ht : s.blk.timer = 1
  · obtain ⟨hi, f, hf, e⟩ | ⟨hi, e⟩ := sampleBit_cases s.cfg s.line s.blk
    · exact .inr (.inl ⟨ht, hi, f, hf, by simp [execBitSettle, ht, e, State.onBlock]⟩)
    · exact .inr (.inr ⟨ht, hi, by simp [execBitSettle, ht, e]⟩)
  · exact .inl ⟨ht, if_neg ht⟩

/-- A micro-operation changes the block alone, and there nothing of the host's (R140, R65). -/
theorem exec_engine_frame {i : Instr} {s t : State} (hi : i.isAccess = false) (h : exec i s = .next t) :
    t = { s with blk := t.blk } ∧ t.blk.hostSettings = s.blk.hostSettings := by
  have hstep {f : Block → Block} (he : engineStep f s = .next t) (hf : (f s.blk).hostSettings = s.blk.hostSettings) :
      t = { s with blk := t.blk } ∧ t.blk.hostSettings = s.blk.hostSettings := by
    obtain rfl : s.onBlock f = t := by simpa [engineStep] using he
    exact ⟨rfl, hf⟩
  cases i with
  | idle | frameComplete | timedOut => exact hstep h rfl
  | rstLow | relWait => exact hstep h (Block.timedStep_hostSettings rfl)
  | presLow | presHigh | bitWaitHigh => exact hstep h (Block.waitStep_hostSettings _ _ _ _ rfl)
  | presOk => exact hstep h rfl
  | bitSettle =>
    obtain ⟨-, e⟩ | ⟨-, -, f, -, e⟩ | ⟨-, -, e⟩ := execBitSettle_cases s
    · exact hstep (e.symm.trans h) rfl
    · exact hstep (e.symm.trans h) rfl
    · cases e.symm.trans h
  | bitWaitLow =>
    refine hstep h (Block.waitStep_hostSettings _ _ _ _ ?_)
    split
    · exact Block.complete_hostSettings _
    · rfl
  | _ => cases hi

/-! ## PROGERR (R34) -/

/-- A programming error sets PROGERR, CLEAR clears it, and every other operation leaves it. -/
theorem exec_progerr_cases {i : Instr} {s t : State} (h : exec i s = .next t) :
    (IsProgError i s.blk ∧ t.blk.progerr = true) ∨ (i = .clear ∧ t.blk.progerr = false) ∨
      t.blk.progerr = s.blk.progerr := by
  cases hi : i.isAccess with
  | false => exact .inr (.inr (congrArg (·.2.2) (exec_engine_frame hi h).2))
  | true =>
    cases accessEffect_of_exec hi h with
    | rejected hp => exact .inl ⟨hp, rfl⟩
    | clearedBusy | clearedFree => exact .inr (.inl ⟨rfl, rfl⟩)
    | read | ignored | begun | pollUsSet | budgetSet => exact .inr (.inr rfl)

/-! ## One step -/

/-- A completed step was taken in a legal build, and was a Tick, a host access or a Reset (R5, R60, R81, R140, R230). -/
theorem step_cases {s t : State} (h : step s = .next t) :
    s.cfg.legal = true ∧
    ((∃ level u, takeEvent s = (.tick level, u) ∧ exec u.blk.phase.operation (sampleLine level u) = .next t) ∨
      (∃ w u, takeEvent s = (.access w, u) ∧ exec (decodeAccess w) u = .next t) ∨
      (∃ u, takeEvent s = (.reset, u) ∧ t = resetEvent u)) := by
  unfold step at h
  split at h
  case isFalse => cases h
  case isTrue hl =>
    refine ⟨hl, ?_⟩
    split at h
    · exact .inl ⟨_, _, ‹_›, h⟩
    · exact .inr (.inl ⟨_, _, ‹_›, h⟩)
    · cases h
      exact .inr (.inr ⟨_, ‹_›, rfl⟩)

/-- A step that takes a Reset event (R230). -/
theorem step_reset {s : State} {es : List Event} (hl : s.cfg.legal = true) (he : s.events = .reset :: es) :
    step s = .next (resetEvent { s with events := es }) := by
  simp [step, hl, takeEvent, he]

end Sys2Proof.Machine
end

section
/-! SUPPORT. Every step keeps the invariant (R39 with R23 to R29), and so does every run. -/

namespace Sys2Proof.Laws

open Sys2Proof.Machine Sys2Proof.Safety

variable {cfg : Config.Build} {b : Block} {s t : State}

/-! ## Host accesses -/

/-- A completed host access keeps the invariant. -/
theorem access_keeps_inv {i : Instr} (hi : i.isAccess = true) (h : Inv s) (he : exec i s = .next t) : Inv t := by
  obtain ⟨hl, hb⟩ := h
  cases accessEffect_of_exec hi he with
  | read v => exact ⟨hl, hb⟩
  | ignored => exact ⟨hl, hb⟩
  | rejected _ => exact ⟨hl, progerr_keeps hb true⟩
  | begun _ => exact ⟨hl, begin_keeps hl hb⟩
  | clearedBusy _ => exact ⟨hl, progerr_keeps hb false⟩
  | clearedFree hfree => exact ⟨hl, toIdle_keeps (progerr_keeps hb false) hfree⟩
  | pollUsSet hfree d => exact ⟨hl, pollUsWrite_keeps hb hfree d⟩
  | budgetSet hfree d => exact ⟨hl, budgetWrite_keeps hb hfree d⟩

/-! ## Ticks -/

/-- Until the presence pulse is confirmed, entering the next phase keeps the invariant: no bit is counted yet. -/
theorem enter_early_keeps (hl : cfg.legal = true) (h : BlockInv cfg b)
    (hb : b.phase = .rstLow ∨ b.phase = .relWait ∨ b.phase = .presLow ∨ b.phase = .presHigh ∨ b.phase = .presOk)
    {p : Phase} (hp : p = .relWait ∨ p = .presLow ∨ p = .presHigh ∨ p = .presOk ∨ p = .bitWaitHigh) :
    BlockInv cfg (b.enter cfg p) := by
  have hidx : b.bitidx = 0 := h.1.early_bitidx (.inr hb)
  have hframe : b.frame = Frame.zero := h.1.frame_zero (by rcases hb with e | e | e | e | e <;> rw [e] <;> rfl)
  have hopen : b.phase ≠ .frameComplete ∧ b.phase ≠ .timedOut := by rcases hb with e | e | e | e | e <;> simp [e]
  refine enter_keeps hl h hopen p ?_ (fun _ => ⟨hidx, hframe⟩) (fun _ => by simp [hidx]) (fun e => ?_)
  · rcases hp with rfl | rfl | rfl | rfl | rfl <;> simp
  · rcases hp with rfl | rfl | rfl | rfl | rfl <;> cases e

/-- The end of a slot keeps the invariant: the frame completes at 40 bits, otherwise the next bit begins (R151). -/
theorem slotEnd_keeps (hl : cfg.legal = true) (h : BlockInv cfg b) (hp : b.phase = .bitWaitLow) :
    BlockInv cfg (if b.bitidx = 40 then b.complete else b.enter cfg .bitWaitHigh) := by
  split
  case isTrue h40 => exact complete_keeps h h40
  case isFalse h40 =>
    have hne : b.bitidx.toNat ≠ 40 := fun e => h40 (BitVec.eq_of_toNat_eq e)
    have hle := h.1.bitidx_bound
    exact enter_keeps hl h (by simp [hp]) _ (by simp) (by simp) (fun _ => by omega) (by simp)

/-- A completed Tick keeps the invariant. -/
theorem tick_keeps_inv (h : Inv s) (he : exec s.blk.phase.operation s = .next t) : Inv t := by
  obtain ⟨hl, hb⟩ := h
  have hstep {f : Block → Block} (hf : BlockInv s.cfg (f s.blk)) (he : engineStep f s = .next t) : Inv t := by
    obtain rfl : s.onBlock f = t := by simpa [engineStep] using he
    exact ⟨hl, hf⟩
  cases hp : s.blk.phase <;> rw [hp] at he
  case idle | frameComplete | timedOut => exact hstep hb he
  case rstLow | relWait =>
    exact hstep (timedStep_keeps hb (by rw [hp]; rfl) _ (enter_early_keeps hl hb (by simp [hp]) (by simp))) he
  case presOk => exact hstep (enter_early_keeps hl hb (by simp [hp]) (by simp)) he
  case presLow =>
    refine hstep (waitStep_keeps hb (q := ⟨.presLow, .presLow, true, .noPresence, .presLow⟩) (by decide) hp _ _ ?_) he
    exact enter_early_keeps hl hb (by simp [hp]) (by simp)
  case presHigh =>
    refine hstep (waitStep_keeps hb (q := ⟨.presHigh, .presHigh, false, .noPresence, .presHigh⟩) (by decide) hp _ _ ?_) he
    exact enter_early_keeps hl hb (by simp [hp]) (by simp)
  case bitWaitHigh =>
    refine hstep (waitStep_keeps hb (q := ⟨.bitWaitHigh, .bitWaitHigh, true, .bitTimeout, .bitWaitHigh⟩)
      (by decide) hp _ _ ?_) he
    exact enter_keeps hl hb (by simp [hp]) _ (by simp) (by simp) (fun _ => hb.2.before_sample (.inl hp)) (by simp)
  case bitSettle =>
    obtain ⟨ht, e⟩ | ⟨-, -, f, -, e⟩ | ⟨-, -, e⟩ := execBitSettle_cases s
    · refine hstep (countDown_keeps hb (fun h0 => ?_) fun _ => ht) (e.symm.trans he)
      have := hb.2.timed_timer (by rw [hp]; rfl)
      simp [h0] at this
    · exact hstep (sampled_keeps hb hp f) (e.symm.trans he)
    · cases e.symm.trans he
  case bitWaitLow =>
    exact hstep (waitStep_keeps hb (q := ⟨.bitWaitLow, .bitWaitLow, false, .bitTimeout, .bitWaitLow⟩)
      (by decide) hp _ _ (slotEnd_keeps hl hb hp)) he

/-! ## Steps and runs -/

/-- Every step keeps the invariant, whatever event it takes. -/
theorem step_keeps_inv (h : Inv s) (hs : step s = .next t) : Inv t := by
  have htake {e : Event} {u : State} (hu : takeEvent s = (e, u)) : Inv u := by
    obtain ⟨hcfg, hblk, -, -⟩ := takeEvent_frame s
    simp only [hu] at hcfg hblk
    rw [Safety.Inv, hcfg, hblk]
    exact h
  obtain ⟨-, ⟨level, u, hu, he⟩ | ⟨w, u, hu, he⟩ | ⟨u, hu, rfl⟩⟩ := step_cases hs
  · have hu' : Inv u := htake hu
    exact tick_keeps_inv (s := sampleLine level u) hu' he
  · exact access_keeps_inv (isAccess_decodeAccess w) (htake hu) he
  · exact ⟨(htake hu).1, reset_blockInv _⟩

/-- A machine runs `n + 1` steps to the end when it steps and then runs `n`. -/
theorem run_succ_eq_next (M : Host.Core) {n : Nat} {x y : M.State} :
    M.run (n + 1) x = .next y ↔ ∃ z, M.step x = .next z ∧ M.run n z = .next y := by
  rw [Host.Core.run]
  cases M.step x <;> simp

/-- A run of `n + 1` steps is a step and a run of `n`. -/
theorem runs_succ {n : Nat} : runs (n + 1) s t ↔ ∃ u, step s = .next u ∧ runs n u t := run_succ_eq_next core

/-- What every step keeps, every run keeps. -/
theorem runs_induction {P : State → Prop} (hstep : ∀ s t, P s → step s = .next t → P t) :
    ∀ {n : Nat} {s t : State}, P s → runs n s t → P t
  | 0, s, t, h, hr => by
    obtain rfl : s = t := Host.Outcome.next.inj hr
    exact h
  | n + 1, s, t, h, hr => by
    obtain ⟨u, hu, hr'⟩ := runs_succ.1 hr
    exact runs_induction hstep (hstep s u h hu) hr'

end Sys2Proof.Laws
end

section
/-! The obligations of the block state (10_state.md). -/

namespace Sys2Proof.Proofs

open Sys2Proof.Machine Sys2Proof.Safety Sys2Proof.Laws

/-- Settles O51: the invariant holds after Reset, every step keeps it, and R39 is part of it. -/
theorem reachableStatesMeetR39 : Obligations.ReachableStatesMeetR39 := by
  intro cfg es n s hl hr
  have h0 : Inv { State.reset with cfg := cfg, events := es } := ⟨hl, reset_blockInv cfg⟩
  exact (runs_induction (P := Inv) (fun _ _ => step_keeps_inv) h0 hr).2.1

/-- Settles O15, from the bits of STATUS and what DONE, OK and ERR stand for. -/
theorem statusReadShowsEveryField : Obligations.StatusReadShowsEveryField := by
  refine ⟨⟨rfl, rfl, rfl, rfl⟩, ⟨rfl, rfl, rfl, rfl, rfl, rfl⟩, fun data s => ?_⟩
  have hbit {i : Nat} (hi : i < 16) := s.blk.status_getLsbD hi
  have hdone : s.blk.status.getLsbD 1 = s.blk.done := hbit (by decide)
  have hok : s.blk.status.getLsbD 2 = s.blk.ok := hbit (by decide)
  have herr : s.blk.status.getLsbD 3 = s.blk.err := hbit (by decide)
  refine ⟨decodeAccess_accessWord false 1 data, decodeAccess_accessWord true 1 data, rfl, s.blk.status, rfl,
    busy_iff s.blk, hbit (by decide), ?_, ?_, ?_, s.blk.status_errcode, hbit (by decide), hbit (by decide),
    s.blk.status_state, s.blk.status_failph, s.blk.status_reserved⟩
  · rw [hdone, s.blk.done_iff]
  · rw [hok, hdone, s.blk.ok_iff]
  · rw [herr, s.blk.err_iff]

/-- Settles O16, phase by phase. -/
theorem busStateFollowsPhaseAndBitidx : Obligations.BusStateFollowsPhaseAndBitidx := by
  intro b
  refine ⟨b.status_state, fun h => ?_, fun h => ?_, fun h => ?_, fun h => ?_, fun h => ?_,
    fun h hi => Block.busState_and_code (Block.busState_bitWaitLow_within h hi),
    fun h hi => Block.busState_and_code (Block.busState_bitWaitLow_boundary h hi), fun h => ?_, fun h => ?_⟩
  all_goals
    refine Block.busState_and_code ?_
    unfold Block.busState
  case refine_1 | refine_4 | refine_6 | refine_7 => rw [h]
  all_goals obtain h | h := h <;> rw [h]

/-- Settles O44: a programming error raises PROGERR, CLEAR clears it, and nothing else touches it. -/
theorem progerrIsSetAndClearedByTheHost : Obligations.ProgerrIsSetAndClearedByTheHost := by
  refine ⟨fun i s t h => ⟨fun hp => ?_, fun h0 h1 => ?_, ?_, fun h1 h0 => ?_⟩, fun s hl => ⟨_, step_reset hl rfl, rfl⟩,
    fun b => b.status_getLsbD (by decide)⟩
  · exact (Host.Outcome.next.inj ((exec_of_isProgError hp).symm.trans h)).symm
  · obtain ⟨hp, -⟩ | ⟨-, hclear⟩ | hkeep := exec_progerr_cases h
    · exact hp
    · simp [hclear] at h1
    · simp [hkeep, h0] at h1
  · rintro rfl
    exact exec_clear_progerr h
  · obtain ⟨-, hset⟩ | ⟨hi, -⟩ | hkeep := exec_progerr_cases h
    · simp [hset] at h0
    · exact hi
    · simp [hkeep, h1] at h0

/-- Settles O46: the line outputs are a function of the phase, START enters RST_LOW, and its last tick leaves it. -/
theorem lineIsDrivenOnlyInResetPulse : Obligations.LineIsDrivenOnlyInResetPulse := by
  refine ⟨fun b => ⟨Block.line_driven, Block.line_released⟩, fun s t hb h => ?_, fun s t ht h => ?_⟩
  · obtain rfl := Host.Outcome.next.inj ((hostWrite_whenNotBusy_free _ hb).symm.trans h)
    exact Block.line_driven rfl
  · obtain rfl := Host.Outcome.next.inj h
    obtain ⟨-, e⟩ | ⟨hne, -⟩ := timedStep_cases (Block.enter s.cfg .relWait) s.blk
    · refine Block.line_released ?_
      rw [State.onBlock_blk, e, Block.enter_phase]
      decide
    · exact absurd ht hne

/-- Settles O1: the step answers `resetEvent`, whose block is R43's. -/
theorem resetEventSetsEveryField : Obligations.ResetEventSetsEveryField := by
  intro s es hl he
  refine ⟨_, step_reset hl he, rfl, rfl, rfl, ?_, rfl, rfl, rfl, rfl, rfl, rfl, rfl, rfl, rfl, ?_⟩
  · rw [resetEvent_blk]; decide
  · rw [resetEvent_blk]; decide

end Sys2Proof.Proofs
end

section
/-! SUPPORT. The halves of the address space (R67, R81), the values of CTRL (R82), and writes that change nothing. -/

namespace Sys2Proof

/-- ADDR[3] = 1 is: an address of 8 or more. -/
theorem eight_le_of_upperHalf {addr : Addr} (h : addr.getLsbD 3 = true) : 8 ≤ addr.toNat := by
  revert addr
  decide

/-- A 1 above three address bits makes an address of the upper half. -/
theorem upperHalf_append (lo : BitVec 3) : (1#1 ++ lo : Addr).getLsbD 3 = true := by
  revert lo
  decide

/-- Reads of the addresses 8 to 15 decode to one operation (R81, R109). -/
theorem decodeRead_upperHalf {addr : Addr} (h : addr.getLsbD 3 = true) (data : Word) :
    decodeRead addr data = .rdUnmapped8F (addr.extractLsb' 0 3) data := by
  have h8 : 8 ≤ addr.toNat := eight_le_of_upperHalf h
  unfold decodeRead
  split
  case h_9 => rfl
  all_goals omega

/-- Writes to the addresses 8 to 15 decode to one operation (R81, R121). -/
theorem decodeWrite_upperHalf {addr : Addr} (h : addr.getLsbD 3 = true) (data : Word) :
    decodeWrite addr data = .wrUnmapped8F (addr.extractLsb' 0 3) data := by
  have h8 : 8 ≤ addr.toNat := eight_le_of_upperHalf h
  unfold decodeWrite
  split
  case h_9 => rfl
  all_goals omega

/-- A CTRL value is reserved when it is none of the three commands (R82, R113). -/
theorem decodeCommand_eq_ctrlRsvd_iff (data : Word) :
    decodeCommand data = .ctrlRsvd data ↔ data ≠ 0x0000 ∧ data ≠ 0x0001 ∧ data ≠ 0x0002 := by
  unfold decodeCommand
  split
  case isTrue h0 => simp [h0]
  case isFalse h0 =>
    split
    case isTrue h1 => simp [h1]
    case isFalse h1 =>
      split
      case isTrue h2 => simp [h2]
      case isFalse h2 => exact iff_of_true rfl ⟨h0, h1, h2⟩

end Sys2Proof

namespace Sys2Proof.Machine

/-- No register stands at the addresses 7 to 15: they read 0x0000 (R67). -/
theorem Block.readRegister_unmapped (b : Block) {addr : Addr} (h : 7 ≤ addr.toNat) : b.readRegister addr = 0x0000 := by
  unfold Block.readRegister
  split
  case h_8 => rfl
  all_goals omega

/-- A read of the addresses 8 to 15 returns 0x0000 (R109). -/
theorem exec_rdUnmapped8F (lo : BitVec 3) (data : Word) (s : State) :
    exec (.rdUnmapped8F lo data) s = .next { s with rdata := 0x0000 } := by
  have hzero : s.blk.readRegister (1#1 ++ lo) = 0x0000 :=
    s.blk.readRegister_unmapped (Nat.le_of_succ_le (eight_le_of_upperHalf (upperHalf_append lo)))
  exact congrArg (hostRead · s) hzero

/-- A write that changes no field of the block leaves the machine as it was. -/
theorem hostWrite_id (s : State) : hostWrite id s = .next s := rfl

end Sys2Proof.Machine
end

section
/-! The obligations of the host accesses (40_host_access.md). -/

namespace Sys2Proof.Proofs

open Sys2Proof.Machine

/-- Settles O13: CTRL reads 0x0000 by the register map, and at the addresses 7 to 15 it holds no register. -/
theorem constantReadsReturnZero : Obligations.ConstantReadsReturnZero := fun data s =>
  ⟨⟨decodeAccess_accessWord false 0x0 data, rfl⟩, ⟨decodeAccess_accessWord false 0x7 data, rfl⟩,
    fun addr h => (decodeAccess_accessWord false addr data).trans (decodeRead_upperHalf h data),
    fun lo => exec_rdUnmapped8F lo data s⟩

/-- Settles O18: NOP's word is a CTRL write of 0, and NOP is a write that changes no field. -/
theorem nopChangesNothing : Obligations.NopChangesNothing :=
  ⟨decodeAccess_accessWord true 0x0 0x0000, hostWrite_id⟩

/-- Settles O22: a CTRL write decodes by its value alone, and CTRL_RSVD is a programming error in every state (R34). -/
theorem reservedCommandSetsProgerr : Obligations.ReservedCommandSetsProgerr := by
  intro data s
  have hctrl : decodeAccess (accessWord true 0x0 data) = decodeCommand data := decodeAccess_accessWord true 0x0 data
  refine ⟨?_, exec_of_isProgError (.inr (.inl ⟨data, rfl⟩))⟩
  rw [hctrl]
  exact decodeCommand_eq_ctrlRsvd_iff data

/-- Settles O23: each word decodes by its address, and each of the six operations is a write that changes no field. -/
theorem readOnlyAndUnmappedWritesAreIgnored : Obligations.ReadOnlyAndUnmappedWritesAreIgnored := by
  intro data s
  have hdecode (addr : Addr) : decodeAccess (accessWord true addr data) = decodeWrite addr data :=
    decodeAccess_accessWord true addr data
  exact ⟨⟨hdecode 0x1, hostWrite_id s⟩, ⟨hdecode 0x2, hostWrite_id s⟩, ⟨hdecode 0x3, hostWrite_id s⟩,
    ⟨hdecode 0x6, hostWrite_id s⟩, ⟨hdecode 0x7, hostWrite_id s⟩,
    fun addr h => (hdecode addr).trans (decodeWrite_upperHalf h data), fun _ => hostWrite_id s⟩

end Sys2Proof.Proofs
end

section
/-! SUPPORT. What a Tick reads and what it samples (R140, R143, R157), and runs of Ticks of given levels. -/

namespace Sys2Proof.Machine

open Sys2Proof.Safety

/-! ## One Tick -/

theorem Phase.isWait_iff (p : Phase) :
    p.isWait = true ↔ p = .presLow ∨ p = .presHigh ∨ p = .bitWaitHigh ∨ p = .bitWaitLow := by
  cases p <;> decide

theorem isAccess_operation (p : Phase) : p.operation.isAccess = false := by cases p <;> rfl

/-- Between two samples a bounded wait counts down, whatever the line (R142). -/
theorem Block.waitStep_of_timer_ne_zero {b : Block} (ht : b.timer ≠ 0) (target : Level) (code : ErrCode) (fp : FailPoint)
    (onSuccess : Block → Block) (line : Level) : b.waitStep target code fp onSuccess line = b.countDown := if_pos ht

/-- A micro-operation depends on what its change does to this block alone. -/
theorem engineStep_congr {f g : Block → Block} {s : State} (h : f s.blk = g s.blk) : engineStep f s = engineStep g s := by
  simp only [engineStep, State.onBlock, h]

/-- In IDLE and in the terminal phases a micro-operation has no effect (R143, R152, R153). -/
theorem exec_operation_of_not_busy {s : State} (h : s.blk.busy = false) : exec s.blk.phase.operation s = .next s := by
  unfold Block.busy at h
  cases hp : s.blk.phase <;> rw [hp] at h
  case idle | frameComplete | timedOut => rfl
  all_goals cases h

/-- Between two samples the phases that sample count down (R142, R150). -/
theorem exec_operation_countDown {s : State} (hp : s.blk.phase.isWait = true ∨ s.blk.phase = .bitSettle)
    (hs : samplesLine s.blk = false) : exec s.blk.phase.operation s = engineStep Block.countDown s := by
  rw [Bool.eq_false_iff, ne_eq, samplesLine_iff] at hs
  obtain ⟨hwait, hsettle⟩ := not_or.1 hs
  obtain hw | hp := hp
  · have ht : s.blk.timer ≠ 0 := fun ht => hwait ⟨hw, ht⟩
    obtain hp | hp | hp | hp := s.blk.phase.isWait_iff.1 hw <;> rw [hp]
    all_goals exact engineStep_congr (Block.waitStep_of_timer_ne_zero ht _ _ _ _ s.line)
  · rw [hp]
    exact if_neg fun ht => hsettle ⟨hp, ht⟩

/-- A micro-operation that does not sample works the same under every level of the line (R157). -/
theorem exec_operation_sampleLine {s t : State} (hs : samplesLine s.blk = false) (level : Level)
    (h : exec s.blk.phase.operation s = .next t) :
    exec s.blk.phase.operation (sampleLine level s) = .next (sampleLine level t) := by
  by_cases hp : s.blk.phase.isWait = true ∨ s.blk.phase = .bitSettle
  · obtain rfl : s.onBlock Block.countDown = t :=
      Host.Outcome.next.inj ((exec_operation_countDown hp hs).symm.trans h)
    exact exec_operation_countDown (s := sampleLine level s) hp hs
  · cases hq : s.blk.phase <;> rw [hq] at h hp
    case presLow | presHigh | bitWaitHigh | bitSettle | bitWaitLow => simp [Phase.isWait] at hp
    all_goals
      cases h
      rfl

/-- A micro-operation neither reads nor changes the events in store (R140). -/
theorem exec_withEvents {i : Instr} {s t : State} (hi : i.isAccess = false) (es : List Event) (h : exec i s = .next t) :
    exec i (withEvents es s) = .next (withEvents es t) := by
  cases i with
  | idle | rstLow | relWait | presLow | presHigh | presOk | bitWaitHigh | bitWaitLow | frameComplete | timedOut =>
    cases h
    rfl
  | bitSettle =>
    simp only [exec, execBitSettle] at h ⊢
    split at h
    case isTrue ht =>
      split at h
      case h_1 b hb =>
        cases h
        simp only [withEvents, ht, hb, if_true]
      case h_2 => cases h
    case isFalse ht =>
      cases h
      simp only [withEvents, ht, if_false, engineStep, State.onBlock]
  | _ => cases hi

/-- A Tick completes in a legal build, with the micro-operation of the phase on the sampled level (R7, R140). -/
theorem perform_tick_eq_next_iff {s t : State} {level : Level} :
    perform (.tick level) s = .next t ↔
      s.cfg.legal = true ∧ exec s.blk.phase.operation (sampleLine level s) = .next t := by
  unfold perform step
  rw [takeEvent_cons]
  cases s.cfg.legal <;> simp

end Sys2Proof.Machine

namespace Sys2Proof.Laws

open Sys2Proof.Machine Sys2Proof.Safety

variable {s t : State} {level : Level} {levels : List Level}

/-! ## Runs of Ticks -/

/-- The first step of a run of Ticks is the first Tick, and leaves the other Ticks in store. -/
theorem step_withTicks_cons {u : State} :
    step (withTicks (level :: levels) s) = .next u ↔
      ∃ v, perform (.tick level) s = .next v ∧ u = withTicks levels v := by
  have hop := isAccess_operation s.blk.phase
  have hperform : step (withTicks (level :: levels) s) = perform (.tick level) (withTicks levels s) := rfl
  simp only [hperform, perform_tick_eq_next_iff]
  constructor
  · rintro ⟨hl, he⟩
    have hv : exec s.blk.phase.operation (sampleLine level s) = .next (withEvents s.events u) :=
      exec_withEvents hop s.events he
    exact ⟨_, ⟨hl, hv⟩, Host.Outcome.next.inj (he.symm.trans (exec_withEvents hop (levels.map .tick) hv))⟩
  · rintro ⟨v, ⟨hl, he⟩, rfl⟩
    exact ⟨hl, exec_withEvents hop _ he⟩

/-- A run of Ticks is the first Tick and a run of the others. -/
theorem runs_withTicks_cons {n : Nat} :
    runs (n + 1) (withTicks (level :: levels) s) t ↔
      ∃ v, perform (.tick level) s = .next v ∧ runs n (withTicks levels v) t := by
  rw [runs_succ]
  constructor
  · rintro ⟨u, hu, hr⟩
    obtain ⟨v, hv, rfl⟩ := step_withTicks_cons.1 hu
    exact ⟨v, hv, hr⟩
  · rintro ⟨v, hv, hr⟩
    exact ⟨_, step_withTicks_cons.2 ⟨v, hv, rfl⟩, hr⟩

/-- A Tick while not busy samples its level and changes nothing else (R143, R152, R153). -/
theorem perform_tick_of_not_busy (hl : s.cfg.legal = true) (hb : s.blk.busy = false) (level : Level) :
    perform (.tick level) s = .next (sampleLine level s) :=
  perform_tick_eq_next_iff.2 ⟨hl, exec_operation_of_not_busy (s := sampleLine level s) hb⟩

/-- Ticks while not busy leave the block as it is (R143, R152, R153). -/
theorem exists_runs_withTicks_of_not_busy (hl : s.cfg.legal = true) (hb : s.blk.busy = false) (levels : List Level) :
    ∃ t, runs levels.length (withTicks levels s) t ∧ t.blk = s.blk := by
  induction levels generalizing s with
  | nil => exact ⟨_, rfl, rfl⟩
  | cons level levels ih =>
    obtain ⟨t, hr, ht⟩ := ih (s := sampleLine level s) hl hb
    exact ⟨t, runs_withTicks_cons.2 ⟨_, perform_tick_of_not_busy hl hb level, hr⟩, ht⟩

/-- Off the sample ticks, Ticks of two levels leave the same block (R157). -/
theorem perform_tick_blk_eq {u : State} {l m : Level} (hs : samplesLine s.blk = false)
    (ht : perform (.tick l) s = .next t) (hu : perform (.tick m) s = .next u) : t.blk = u.blk := by
  obtain ⟨-, het⟩ := perform_tick_eq_next_iff.1 ht
  obtain ⟨-, heu⟩ := perform_tick_eq_next_iff.1 hu
  have hm : exec s.blk.phase.operation (sampleLine m s) = .next (sampleLine m t) :=
    exec_operation_sampleLine (s := sampleLine l s) hs m het
  obtain rfl : sampleLine m t = u := Host.Outcome.next.inj (hm.symm.trans heu)
  rfl

end Sys2Proof.Laws
end

section
/-! SUPPORT. The number that a row of bits spells, and the bits that each byte of the frame buffer holds (R25, R150, R154). -/

namespace Sys2Proof.Laws

open Sys2Proof.Machine Sys2Proof.Safety

/-! ## Bits and the numbers they spell -/

/-- The number that a row of bits spells, most significant bit first. -/
def bitsNumber (bits : List Level) : Nat := Nat.ofDigits 2 (bits.reverse.map Bool.toNat)

/-- The bits of a sequence that belong to byte `k`: those with indexes 8k to 8k+7, as far as they are there. -/
def byteBits (bits : List Level) (k : Nat) : List Level := (bits.drop (8 * k)).take 8

@[simp] theorem bitsNumber_nil : bitsNumber [] = 0 := rfl

theorem bitsNumber_concat (bits : List Level) (l : Level) : bitsNumber (bits ++ [l]) = 2 * bitsNumber bits + l.toNat := by
  simp [bitsNumber, Nat.ofDigits_cons, Nat.add_comm]

theorem bitsNumber_lt (bits : List Level) : bitsNumber bits < 2 ^ bits.length := by
  have hdigit : ∀ d ∈ bits.reverse.map Bool.toNat, d < 2 := by
    intro d hd
    obtain ⟨l, -, rfl⟩ := List.mem_map.1 hd
    exact Bool.toNat_lt l
  simpa [bitsNumber] using Nat.ofDigits_lt_base_pow_length (by decide) hdigit

@[simp] theorem byteBits_nil (k : Nat) : byteBits [] k = [] := by simp [byteBits]

/-- The next bit joins the byte that its index falls in. -/
theorem byteBits_concat_same (bits : List Level) (l : Level) :
    byteBits (bits ++ [l]) (bits.length / 8) = byteBits bits (bits.length / 8) ++ [l] := by
  have hle : 8 * (bits.length / 8) ≤ bits.length := Nat.mul_div_le _ _
  rw [byteBits, byteBits, List.drop_append_of_le_length hle, List.take_of_length_le, List.take_of_length_le]
  · simp; omega
  · simp; omega

/-- The next bit joins no other byte. -/
theorem byteBits_concat_other (bits : List Level) (l : Level) {k : Nat} (hk : k ≠ bits.length / 8) :
    byteBits (bits ++ [l]) k = byteBits bits k := by
  obtain hlt | hgt := Nat.lt_or_gt_of_ne hk
  · rw [byteBits, byteBits, List.drop_append_of_le_length (by omega), List.take_append_of_le_length (by simp; omega)]
  · rw [byteBits, byteBits, List.drop_of_length_le (by simp; omega), List.drop_of_length_le (by omega)]

/-- The byte still to be filled has room for one bit more. -/
theorem byteBits_length_lt (bits : List Level) : (byteBits bits (bits.length / 8)).length < 8 := by
  simp [byteBits]; omega

/-- Eight bits spell their number (R154). -/
theorem spelledByte_zero {bits : List Level} (h : bits.length = 8) : spelledByte bits 0 = bitsNumber bits := by
  match bits, h with
  | [a, b, c, d, e, f, g, h], _ =>
    have hspell : spelledByte [a, b, c, d, e, f, g, h] 0 =
        a.toNat * 128 + (b.toNat * 64 + (c.toNat * 32 + (d.toNat * 16 +
          (e.toNat * 8 + (f.toNat * 4 + (g.toNat * 2 + h.toNat)))))) := by
      simp [spelledByte, List.range_succ]
    have hnumber : bitsNumber [a, b, c, d, e, f, g, h] =
        h.toNat + 2 * (g.toNat + 2 * (f.toNat + 2 * (e.toNat + 2 * (d.toNat + 2 * (c.toNat + 2 *
          (b.toNat + 2 * (a.toNat + 2 * 0))))))) := rfl
    omega

/-- A byte spells the bits that belong to it. -/
theorem spelledByte_byteBits (bits : List Level) (k : Nat) : spelledByte (byteBits bits k) 0 = spelledByte bits k := by
  unfold spelledByte
  refine congrArg List.sum (List.map_congr_left fun j hj => ?_)
  have hget : (byteBits bits k).getD (8 * 0 + j) false = bits.getD (8 * k + j) false := by
    simp [byteBits, List.getD_eq_getElem?_getD, List.mem_range.1 hj]
  rw [hget]

/-- A byte whose eight bits are there spells their number (R154). -/
theorem spelledByte_eq_bitsNumber {bits : List Level} {k : Nat} (hk : 8 * k + 8 ≤ bits.length) :
    spelledByte bits k = bitsNumber (byteBits bits k) := by
  rw [← spelledByte_byteBits]
  refine spelledByte_zero ?_
  simp only [byteBits, List.length_take, List.length_drop]
  omega

/-! ## The bits in the frame buffer -/

/-- The zero frame holds the number 0 in every byte (R25). -/
theorem frameByte_zero (k : Nat) : frameByte Frame.zero k = 0 := by
  unfold frameByte
  split <;> rfl

/-- A bit shifted into byte `k` leaves the other bytes (R150). -/
theorem frameByte_shiftInto {f g : Frame} {k : Nat} {l : Level} (h : f.shiftInto k l = some g) (j : Nat) :
    frameByte g j = if j = k then shiftBit (frameByte f k) l else frameByte f j := by
  match k with
  | 0 | 1 | 2 | 3 | 4 =>
    cases h
    match j with
    | 0 | 1 | 2 | 3 | 4 | _ + 5 => rfl
  | _ + 5 => cases h

/-- `bits` are the bits counted so far, and each byte of the frame buffer is the number that its bits spell. -/
def FrameHolds (bits : List Level) (b : Block) : Prop :=
  bits.length = b.bitidx.toNat ∧ ∀ k < 5, (frameByte b.frame k).toNat = bitsNumber (byteBits bits k)

/-- An empty frame buffer holds no bit. -/
theorem frameHolds_nil {b : Block} (hi : b.bitidx = 0) (hf : b.frame = Frame.zero) : FrameHolds [] b :=
  ⟨by simp [hi], fun k _ => by simp [hf, frameByte_zero]⟩

/-- The sampled bit is the next one that the frame buffer holds (R150). -/
theorem frameHolds_concat {bits : List Level} {b c : Block} {l : Level} (h : FrameHolds bits b)
    (hi : b.bitidx.toNat < 40) (hf : b.frame.shiftInto (b.bitidx.toNat / 8) l = some c.frame)
    (hc : c.bitidx = b.bitidx + 1) : FrameHolds (bits ++ [l]) c := by
  obtain ⟨hlen, hbytes⟩ := h
  have hidx : c.bitidx.toNat = b.bitidx.toNat + 1 := by rw [hc]; bv_omega
  refine ⟨by simp [hlen, hidx], fun k hk => ?_⟩
  rw [frameByte_shiftInto hf, ← hlen]
  split
  case isTrue hsame =>
    subst hsame
    have hroom : bitsNumber (byteBits bits (bits.length / 8)) < 2 ^ 7 :=
      (bitsNumber_lt _).trans_le (Nat.pow_le_pow_right (by decide) (Nat.le_of_lt_succ (byteBits_length_lt bits)))
    have hl : l.toNat < 2 := Bool.toNat_lt l
    rw [shiftBit_toNat, hbytes _ hk, byteBits_concat_same, bitsNumber_concat]
    omega
  case isFalse hother => rw [byteBits_concat_other bits l hother, hbytes k hk]

/-! ## The bits of a transaction -/

/-- The transaction has ended, or it is past the presence pulse and the frame buffer holds `bits`. -/
def EndedOrHolds (bits : List Level) (b : Block) : Prop :=
  b.phase.isTerminal = true ∨ (b.phase = .presOk ∨ b.phase.isBit = true) ∧ FrameHolds bits b

/-- Every error ends the transaction (R201). -/
theorem endPhase_isTerminal (code : ErrCode) : code.endPhase.isTerminal = true := by cases code <;> rfl

theorem complete_isTerminal (b : Block) : b.complete.phase.isTerminal = true := by
  obtain ⟨-, e⟩ | ⟨-, e⟩ := complete_cases b <;> rw [e] <;> rfl

/-- A bounded wait ends the transaction or leaves the bits, if its success does. -/
theorem waitStep_endedOrHolds {bits : List Level} {b : Block} (h : EndedOrHolds bits b) (target : Level) (code : ErrCode)
    (fp : FailPoint) {onSuccess : Block → Block} (line : Level) (hs : EndedOrHolds bits (onSuccess b)) :
    EndedOrHolds bits (b.waitStep target code fp onSuccess line) := by
  obtain ⟨-, e⟩ | ⟨-, -, e⟩ | ⟨-, -, -, e⟩ | ⟨-, -, -, e⟩ := waitStep_cases target code fp onSuccess line b <;> rw [e]
  · exact h
  · exact hs
  · exact .inl (endPhase_isTerminal code)
  · exact h

/-- The bit that a Tick in this state samples, if it samples one. -/
def tickBits (l : Level) (b : Block) : List Level := if samplesBit b then [l] else []

/-- A Tick samples a bit on the last tick of BIT_SETTLE (R150). -/
theorem samplesBit_iff (b : Block) : samplesBit b = true ↔ b.phase = .bitSettle ∧ b.timer = 1 := by simp [samplesBit]

/-- A completed micro-operation adds the bit it samples to those that the frame buffer holds (R150, R154). -/
theorem exec_operation_endedOrHolds {bits : List Level} {s t : State} (h : EndedOrHolds bits s.blk)
    (he : exec s.blk.phase.operation s = .next t) : EndedOrHolds (bits ++ tickBits s.line s.blk) t.blk := by
  have hstep {f : Block → Block} (hbits : tickBits s.line s.blk = []) (he : engineStep f s = .next t)
      (hf : EndedOrHolds bits (f s.blk)) : EndedOrHolds (bits ++ tickBits s.line s.blk) t.blk := by
    obtain rfl := Host.Outcome.next.inj he
    rw [hbits, List.append_nil]
    exact hf
  have hnone (hp : s.blk.phase ≠ .bitSettle) : tickBits s.line s.blk = [] :=
    if_neg fun hb => hp ((samplesBit_iff s.blk).1 hb).1
  have henter {p : Phase} (hp : p.isBit = true) (hopen : s.blk.phase.isTerminal = false) :
      EndedOrHolds bits (s.blk.enter s.cfg p) := by
    obtain hend | ⟨-, hholds⟩ := h
    · simp [hopen] at hend
    · exact .inr ⟨.inr hp, hholds⟩
  cases hp : s.blk.phase <;> rw [hp] at he
  case idle | rstLow | relWait | presLow | presHigh =>
    simp [EndedOrHolds, hp, Phase.isTerminal, Phase.isBit] at h
  case frameComplete | timedOut => exact hstep (hnone (by simp [hp])) he h
  case presOk => exact hstep (hnone (by simp [hp])) he (henter rfl (by rw [hp]; rfl))
  case bitWaitHigh =>
    exact hstep (hnone (by simp [hp])) he (waitStep_endedOrHolds h _ _ _ _ (henter rfl (by rw [hp]; rfl)))
  case bitWaitLow =>
    refine hstep (hnone (by simp [hp])) he (waitStep_endedOrHolds h _ _ _ _ ?_)
    split
    · exact .inl (complete_isTerminal s.blk)
    · exact henter rfl (by rw [hp]; rfl)
  case bitSettle =>
    obtain ⟨ht, e⟩ | ⟨ht, hi, f, hf, e⟩ | ⟨-, -, e⟩ := execBitSettle_cases s
    · exact hstep (if_neg fun hb => ht ((samplesBit_iff s.blk).1 hb).2) (e.symm.trans he) h
    · obtain ⟨-, hholds⟩ := h.resolve_left (by rw [hp]; decide)
      obtain rfl := Host.Outcome.next.inj (e.symm.trans he)
      have hbits : tickBits s.line s.blk = [s.line] := if_pos ((samplesBit_iff s.blk).2 ⟨hp, ht⟩)
      rw [hbits]
      exact .inr ⟨.inr rfl, frameHolds_concat hholds hi hf rfl⟩
    · cases e.symm.trans he

theorem sampledBits_cons {l : Level} {ls : List Level} {s t : State} (h : perform (.tick l) s = .next t) :
    sampledBits (l :: ls) s = tickBits l s.blk ++ sampledBits ls t := by
  simp only [sampledBits, h, tickBits]

/-- A run of Ticks adds the bits it samples to those that the frame buffer holds (R154). -/
theorem runs_endedOrHolds {bits levels : List Level} {s t : State} (h : EndedOrHolds bits s.blk)
    (hr : runs levels.length (withTicks levels s) t) : EndedOrHolds (bits ++ sampledBits levels s) t.blk := by
  induction levels generalizing bits s with
  | nil =>
    obtain rfl : withTicks [] s = t := Host.Outcome.next.inj hr
    rw [sampledBits, List.append_nil]
    exact h
  | cons l ls ih =>
    obtain ⟨v, hv, hr⟩ := runs_withTicks_cons.1 hr
    obtain ⟨-, he⟩ := perform_tick_eq_next_iff.1 hv
    have hnext : EndedOrHolds (bits ++ tickBits l s.blk) v.blk :=
      exec_operation_endedOrHolds (s := sampleLine l s) h he
    rw [sampledBits_cons hv, ← List.append_assoc]
    exact ih hnext hr

end Sys2Proof.Laws
end

section
/-! The obligations of the bus engine (41_bus_engine.md). -/

namespace Sys2Proof.Proofs

open Sys2Proof.Machine Sys2Proof.Safety Sys2Proof.Laws

/-- Settles O27: the three operations are the identity on the block, and a block in one of the three phases is not busy,
so an induction over the levels keeps it. -/
theorem restingPhasesIgnoreTicks : Obligations.RestingPhasesIgnoreTicks := by
  refine ⟨fun s => ⟨rfl, rfl, rfl⟩, fun s levels hl hp => exists_runs_withTicks_of_not_busy hl ?_ levels⟩
  unfold Block.busy
  obtain hp | hp | hp := hp <;> rw [hp]

/-- Settles O47: a Tick outside the listed ticks does not sample the line. -/
theorem lineIsIgnoredOffSampleTicks : Obligations.LineIsIgnoredOffSampleTicks := by
  intro s t u l m hwait hsettle
  have hs : samplesLine s.blk = false := by
    rw [Bool.eq_false_iff, ne_eq, samplesLine_iff, Phase.isWait_iff]
    exact not_or.2 ⟨hwait, hsettle⟩
  exact perform_tick_blk_eq hs

/-- Settles O60: at PRES_OK the frame buffer holds no bit, and from there it holds the bits sampled so far; 40 bits fill
every byte. -/
theorem completeFrameSpellsSampledBits : Obligations.CompleteFrameSpellsSampledBits := by
  rintro s t levels ⟨-, hreach, -⟩ hp hr htp hti
  have hempty : FrameHolds [] s.blk :=
    frameHolds_nil (hreach.early_bitidx (by simp [hp])) (hreach.frame_zero (by rw [hp]; rfl))
  have hend : EndedOrHolds (sampledBits levels s) t.blk := runs_endedOrHolds (bits := []) (.inr ⟨.inl hp, hempty⟩) hr
  obtain ⟨-, hlen, hbytes⟩ := hend.resolve_left (by rw [htp]; decide)
  have h40 : (sampledBits levels s).length = 40 := by rw [hlen, hti]; rfl
  exact ⟨h40, fun k hk => by rw [hbytes k hk, spelledByte_eq_bitsNumber (by omega)]⟩

end Sys2Proof.Proofs
end

section
/-! The checksum and the decoder (42_checksum_decode.md): which checksum byte a frame needs, and how a decoded value is
stored in a 16-bit register. -/

namespace Sys2Proof.Laws

open Sys2Proof.Machine

/-- R180 as an equation of bytes: a frame is accepted exactly when its checksum byte is the sum of the data bytes. -/
theorem checksumOk_iff_checksum_eq (f : Frame) : f.checksumOk = true ↔ f.checksum = BitVec.ofNat 8 f.sum := by
  rw [checksumOk_iff, ← BitVec.toNat_inj, BitVec.toNat_ofNat]
  exact eq_comm

/-- A value in the decoder's range fits in 16 bits (R183). -/
theorem toNat_ofNat_of_le_2805 {n : Nat} (h : n ≤ 2805) : (BitVec.ofNat 16 n).toNat = n := by
  rw [BitVec.toNat_ofNat, Nat.mod_eq_of_lt (h.trans_lt (by decide))]

/-- A value in the decoder's range leaves the sign bit of a 16-bit register 0 (R183). -/
theorem getLsbD_15_ofNat_of_le_2805 {n : Nat} (h : n ≤ 2805) : (BitVec.ofNat 16 n).getLsbD 15 = false := by
  have hlt : n < 2 ^ 15 := h.trans_lt (by decide)
  rw [BitVec.getLsbD, toNat_ofNat_of_le_2805 h, Nat.testBit_lt_two_pow hlt]

end Sys2Proof.Laws
end

section
/-! The obligations of the checksum and the decoder (42_checksum_decode.md). -/

namespace Sys2Proof.Proofs

open Sys2Proof.Machine Sys2Proof.Laws

/-- Settles O38: the accepted byte is the sum of the data bytes as a byte, whose value is the sum mod 256. -/
theorem exactlyOneChecksumByteIsAccepted : Obligations.ExactlyOneChecksumByteIsAccepted := by
  intro a b c d
  exact ⟨BitVec.ofNat 8 (a.toNat + b.toNat + c.toNat + d.toNat), BitVec.toNat_ofNat _ _,
    fun x => checksumOk_iff_checksum_eq ⟨a, b, c, d, x⟩⟩

/-- Settles O39: the range bounds what is stored; 0xFF in every data byte attains it, and the temperature bytes 1, 0 and
0, 10 both decode to 10. -/
theorem decoderFormulaAndRange : Obligations.DecoderFormulaAndRange := by
  refine ⟨fun f => ?_, ?attained, ?notInjective⟩
  · obtain ⟨htemp, hhum⟩ := decode_le f
    exact ⟨decodeTemp_eq f, decodeHum_eq f, htemp, hhum, toNat_ofNat_of_le_2805 htemp, toNat_ofNat_of_le_2805 hhum,
      getLsbD_15_ofNat_of_le_2805 htemp⟩
  case attained =>
    exact ⟨⟨0xFF, 0xFF, 0xFF, 0xFF, 0xFC⟩, by decide⟩
  case notInjective =>
    exact ⟨{ Frame.zero with temperatureHigh := 1 }, { Frame.zero with temperatureLow := 10 }, by decide⟩

end Sys2Proof.Proofs
end

section
/-! SUPPORT. Between the operations and their codes: the encoder on what the decoder selects (R81, R84), the register that a
read word names (R67), and the first row of the opcode table that takes a word. -/

namespace Sys2Proof

/-! ## Addresses -/

/-- An address is one of the eight of the lower half, or of the upper half (R67, R81). -/
theorem addr_cases (addr : Addr) :
    (addr = 0 ∨ addr = 1 ∨ addr = 2 ∨ addr = 3 ∨ addr = 4 ∨ addr = 5 ∨ addr = 6 ∨ addr = 7) ∨ addr.getLsbD 3 = true := by
  revert addr
  decide

/-- The lower bits of an address of the upper half, under a 1, are the address again (R81). -/
theorem one_append_extractLsb' {addr : Addr} (h : addr.getLsbD 3 = true) : 1#1 ++ addr.extractLsb' 0 3 = addr := by
  revert addr
  decide

/-- Three bits under a 1 are read back (R81). -/
theorem extractLsb'_one_append (lo : BitVec 3) : (1#1 ++ lo : Addr).extractLsb' 0 3 = lo := by
  revert lo
  decide

/-! ## Encoding what the decoder selects -/

/-- A read of an address is encoded as that read, its DATA included (R81, R85). -/
theorem encode_decodeRead (addr : Addr) (data : Word) :
    encode (decodeRead addr data) = .access (accessWord false addr data) ∧ (decodeRead addr data).wellFormed = true := by
  obtain (rfl | rfl | rfl | rfl | rfl | rfl | rfl | rfl) | h := addr_cases addr
  case inr => rw [decodeRead_upperHalf h, encode, one_append_extractLsb' h]; exact ⟨rfl, rfl⟩
  all_goals exact ⟨rfl, rfl⟩

/-- A command is encoded as its write to CTRL (R82). -/
theorem encode_decodeCommand (data : Word) :
    encode (decodeCommand data) = .access (accessWord true 0x0 data) ∧ (decodeCommand data).wellFormed = true := by
  by_cases hr : decodeCommand data = .ctrlRsvd data
  · obtain ⟨h0, h1, h2⟩ := (decodeCommand_eq_ctrlRsvd_iff data).1 hr
    rw [hr]
    exact ⟨rfl, by simpa [Instr.wellFormed, and_assoc] using ⟨h0, h1, h2⟩⟩
  · rw [decodeCommand_eq_ctrlRsvd_iff] at hr
    obtain rfl | rfl | rfl : data = 0x0000 ∨ data = 0x0001 ∨ data = 0x0002 := by tauto
    all_goals exact ⟨rfl, rfl⟩

/-- A write to an address is encoded as that write, its DATA included (R81, R85). -/
theorem encode_decodeWrite (addr : Addr) (data : Word) :
    encode (decodeWrite addr data) = .access (accessWord true addr data) ∧ (decodeWrite addr data).wellFormed = true := by
  obtain (rfl | rfl | rfl | rfl | rfl | rfl | rfl | rfl) | h := addr_cases addr
  case inr => rw [decodeWrite_upperHalf h, encode, one_append_extractLsb' h]; exact ⟨rfl, rfl⟩
  case inl.inl => exact encode_decodeCommand data
  all_goals exact ⟨rfl, rfl⟩

/-- The operation of an access word is encoded as that word (R81). -/
theorem encode_decodeAccess (w : AccessWord) :
    encode (decodeAccess w) = .access w ∧ (decodeAccess w).wellFormed = true := by
  rw [← accessWord_fields w, decodeAccess_accessWord]
  cases accessRw w
  · exact encode_decodeRead _ _
  · exact encode_decodeWrite _ _

/-- The word of RW, ADDR and DATA decodes by RW (R81). -/
theorem decode_accessWord (rw : Bool) (addr : Addr) (data : Word) :
    decode (.access (accessWord rw addr data)) = .ok (if rw then decodeWrite addr data else decodeRead addr data) :=
  congrArg Except.ok (decodeAccess_accessWord rw addr data)

/-- What an operation is encoded as decodes to it again (R81, R84). -/
theorem decode_encode {i : Instr} (h : i.wellFormed = true) : decode (encode i) = .ok i := by
  cases i with
  | rdCtrl data | rdStatus data | rdTemp data | rdHum data | rdPollUs data | rdBudget data | rdBitidx data
  | rdUnmapped7 data => exact decode_accessWord false _ data
  | wrStatus data | wrTemp data | wrHum data | wrPollUs data | wrBudget data | wrBitidx data | wrUnmapped7 data =>
    exact decode_accessWord true _ data
  | nop | start | clear => exact decode_accessWord true 0x0 _
  | rdUnmapped8F lo data =>
    refine (decode_accessWord false (1#1 ++ lo) data).trans (congrArg Except.ok ?_)
    exact (decodeRead_upperHalf (upperHalf_append lo) data).trans (by rw [extractLsb'_one_append])
  | wrUnmapped8F lo data =>
    refine (decode_accessWord true (1#1 ++ lo) data).trans (congrArg Except.ok ?_)
    exact (decodeWrite_upperHalf (upperHalf_append lo) data).trans (by rw [extractLsb'_one_append])
  | ctrlRsvd data =>
    have hdata : data ≠ 0x0000 ∧ data ≠ 0x0001 ∧ data ≠ 0x0002 := by simpa [Instr.wellFormed, and_assoc] using h
    exact (decode_accessWord true 0x0 data).trans (congrArg Except.ok ((decodeCommand_eq_ctrlRsvd_iff data).2 hdata))
  | idle | rstLow | relWait | presLow | presHigh | presOk | bitWaitHigh | bitSettle | bitWaitLow | frameComplete
  | timedOut => rfl

end Sys2Proof

namespace Sys2Proof.Machine

/-! ## Phase codes -/

/-- A code below 11 is that of a phase (R21). -/
theorem exists_phase_code {c : BitVec 4} (h : c.toNat < 11) : ∃ p : Phase, p.code = c := by
  have hmap : (Phase.ofCode c).map Phase.code = some c := by
    revert c
    decide
  obtain ⟨p, -, hp⟩ := Option.map_eq_some_iff.1 hmap
  exact ⟨p, hp⟩

/-- The codes 11 to 15 select nothing (R84). -/
theorem decodePhase_reserved {c : BitVec 4} (h : 11 ≤ c.toNat) : decodePhase c = .error (.reservedPhaseCode c) := by
  unfold decodePhase
  split
  case h_12 => rfl
  all_goals omega

/-- The operation of a phase code is encoded as that code (R84). -/
theorem encode_of_decodePhase {c : BitVec 4} {i : Instr} (h : decodePhase c = .ok i) :
    encode i = .phase c ∧ i.wellFormed = true := by
  obtain hlt | hge := Nat.lt_or_ge c.toNat 11
  · obtain ⟨p, rfl⟩ := exists_phase_code hlt
    obtain rfl : p.operation = i := Except.ok.inj ((decodePhase_code p).symm.trans h)
    cases p <;> exact ⟨rfl, rfl⟩
  · cases (decodePhase_reserved hge).symm.trans h

/-- Each phase row of the opcode table names the operation its code decodes to (R84). -/
theorem exists_decode_of_mem_phaseRows : ∀ r ∈ phaseRows, ∃ i : Instr, decode (.phase r.2) = .ok i ∧ i.mnemonic = r.1 := by
  simp only [phaseRows, List.mem_cons, List.not_mem_nil, or_false]
  rintro r (rfl | rfl | rfl | rfl | rfl | rfl | rfl | rfl | rfl | rfl | rfl) <;> exact ⟨_, rfl, rfl⟩

/-! ## Reads -/

/-- A read of an address returns the register it names (R67). -/
theorem exec_decodeRead (addr : Addr) (data : Word) (s : State) :
    exec (decodeRead addr data) s = hostRead (s.blk.readRegister addr) s := by
  obtain (rfl | rfl | rfl | rfl | rfl | rfl | rfl | rfl) | h := addr_cases addr
  case inr =>
    rw [decodeRead_upperHalf h]
    exact congrArg (fun a => hostRead (s.blk.readRegister a) s) (one_append_extractLsb' h)
  all_goals rfl

end Sys2Proof.Machine

namespace Sys2Proof

/-! ## The rows of the opcode table -/

/-- Two rows that take the same word overlap. -/
theorem AccessRow.overlaps_of_takes {r q : AccessRow} {w : AccessWord} (hr : r.takes w = true) (hq : q.takes w = true) :
    r.overlaps q = true := by
  simp only [AccessRow.takes, beq_iff_eq] at hr hq
  simp only [AccessRow.overlaps, beq_iff_eq, ← hr, ← hq]
  apply BitVec.eq_of_getLsbD_eq
  intro i hi
  simp only [BitVec.getLsbD_and, BitVec.getLsbD_xor, BitVec.getLsbD_zero]
  cases w.getLsbD i <;> cases r.mask.getLsbD i <;> cases q.mask.getLsbD i <;> rfl

/-- A row with no free bit takes its pattern only. -/
theorem AccessRow.eq_pattern_of_takes {r : AccessRow} {w : AccessWord} (hm : r.mask = 0x1FFFFF#21)
    (h : r.takes w = true) : w = r.pattern := by
  have hones : w &&& 0x1FFFFF#21 = w := BitVec.and_allOnes
  simpa [AccessRow.takes, hm, hones] using h

/-- Where two rows overlap, the first is that of one command (R81: NOP, START and CLEAR stand before CTRL_RSVD). -/
def CommandBefore (q r : AccessRow) : Prop :=
  q.overlaps r = true → q.mask = 0x1FFFFF#21 ∧ q.mnemonic = (decodeAccess q.pattern).mnemonic

theorem accessRows_pairwise : accessRows.Pairwise CommandBefore := by
  unfold CommandBefore
  decide

theorem rows_pairwise_not_overlaps : (readRows ++ writeRows).Pairwise fun r q => r.overlaps q = false := by
  decide

/-- The first element that meets `p` is any one that does, or stands before it. -/
theorem exists_find?_of_pairwise {α : Type} {R : α → α → Prop} {p : α → Bool} {l : List α} {r : α} (hl : l.Pairwise R)
    (hr : r ∈ l) (hp : p r = true) : ∃ q, l.find? p = some q ∧ p q = true ∧ (q = r ∨ R q r) := by
  induction l with
  | nil => cases hr
  | cons a l ih =>
    obtain ⟨ha, hl⟩ := List.pairwise_cons.1 hl
    cases hpa : p a with
    | true => exact ⟨a, List.find?_cons_of_pos hpa, hpa, (List.mem_cons.1 hr).imp Eq.symm (ha r)⟩
    | false =>
      have hne : r ≠ a := fun e => by simp [e, hpa] at hp
      rw [List.find?_cons_of_neg (by simp [hpa])]
      exact ih hl ((List.mem_cons.1 hr).resolve_left hne)

end Sys2Proof

namespace Sys2Proof.Laws

/-- The opcode table has a row for each operation's code. -/
theorem tableRow_statement : ∀ i : Instr, TableRow.Statement i
  | .rdCtrl data => TableRow.rdCtrl data
  | .rdStatus data => TableRow.rdStatus data
  | .rdTemp data => TableRow.rdTemp data
  | .rdHum data => TableRow.rdHum data
  | .rdPollUs data => TableRow.rdPollUs data
  | .rdBudget data => TableRow.rdBudget data
  | .rdBitidx data => TableRow.rdBitidx data
  | .rdUnmapped7 data => TableRow.rdUnmapped7 data
  | .rdUnmapped8F lo data => TableRow.rdUnmapped8F lo data
  | .nop => TableRow.nop
  | .start => TableRow.start
  | .clear => TableRow.clear
  | .ctrlRsvd data => TableRow.ctrlRsvd data
  | .wrStatus data => TableRow.wrStatus data
  | .wrTemp data => TableRow.wrTemp data
  | .wrHum data => TableRow.wrHum data
  | .wrPollUs data => TableRow.wrPollUs data
  | .wrBudget data => TableRow.wrBudget data
  | .wrBitidx data => TableRow.wrBitidx data
  | .wrUnmapped7 data => TableRow.wrUnmapped7 data
  | .wrUnmapped8F lo data => TableRow.wrUnmapped8F lo data
  | .idle => TableRow.idle
  | .rstLow => TableRow.rstLow
  | .relWait => TableRow.relWait
  | .presLow => TableRow.presLow
  | .presHigh => TableRow.presHigh
  | .presOk => TableRow.presOk
  | .bitWaitHigh => TableRow.bitWaitHigh
  | .bitSettle => TableRow.bitSettle
  | .bitWaitLow => TableRow.bitWaitLow
  | .frameComplete => TableRow.frameComplete
  | .timedOut => TableRow.timedOut

/-- The row of a word's operation takes the word (R81). -/
theorem exists_row_decodeAccess (w : AccessWord) :
    ∃ r ∈ accessRows, r.mnemonic = (decodeAccess w).mnemonic ∧ r.takes w = true := by
  have h := tableRow_statement (decodeAccess w)
  rw [TableRow.Statement, (encode_decodeAccess w).1] at h
  exact h

end Sys2Proof.Laws
end

section
/-! The obligations of the encodings (30_encoding.md). -/

namespace Sys2Proof.Proofs

open Sys2Proof.Machine Sys2Proof.Laws

/-- Settles O7: a code built from fields is decoded by its fields; phase codes are read back one by one. -/
theorem decodeOfEncodeIsIdentity : Obligations.DecodeOfEncodeIsIdentity := fun _ => decode_encode

/-- Settles O8: an access word is its fields, and the address and value that select an operation are those it is encoded
with. -/
theorem encodeOfDecodeIsIdentity : Obligations.EncodeOfDecodeIsIdentity := by
  intro c i h
  cases c with
  | access w =>
    obtain rfl : decodeAccess w = i := Except.ok.inj h
    exact encode_decodeAccess w
  | phase c => exact encode_of_decodePhase h

/-- Settles O9: the row of the decoded operation takes the word; a row before it that does so too is that of one command,
whose word this then is. -/
theorem decodeFollowsOpcodeTable : Obligations.DecodeFollowsOpcodeTable := by
  intro w
  obtain ⟨r, hmem, hname, htakes⟩ := exists_row_decodeAccess w
  obtain ⟨q, hfind, hq, rfl | hbefore⟩ := exists_find?_of_pairwise (p := fun r => r.takes w) accessRows_pairwise hmem htakes
  · exact ⟨q, hfind, hname⟩
  · obtain ⟨hmask, hcommand⟩ := hbefore (AccessRow.overlaps_of_takes hq htakes)
    exact ⟨q, hfind, by rw [AccessRow.eq_pattern_of_takes hmask hq, hcommand]⟩

/-- Settles O10: two rows that take the same word overlap, and no two of these rows do. -/
theorem opcodeRowsAreDisjoint : Obligations.OpcodeRowsAreDisjoint :=
  rows_pairwise_not_overlaps.imp fun hno _ ⟨hr, hq⟩ => by simp [AccessRow.overlaps_of_takes hr hq] at hno

/-- Settles O11: the words are fixed ones, so the decoder computes. -/
theorem sampleWordsDecode : Obligations.SampleWordsDecode := by
  unfold Obligations.SampleWordsDecode
  decide

/-- Settles O12, phase by phase and row by row; a code of 11 or more is that of no phase. -/
theorem phaseCodesSelectTheirOperations : Obligations.PhaseCodesSelectTheirOperations :=
  ⟨⟨rfl, rfl⟩, ⟨rfl, rfl⟩, ⟨rfl, rfl⟩, ⟨rfl, rfl⟩, ⟨rfl, rfl⟩, ⟨rfl, rfl⟩, ⟨rfl, rfl⟩, ⟨rfl, rfl⟩, ⟨rfl, rfl⟩, ⟨rfl, rfl⟩,
    ⟨rfl, rfl⟩, decodePhase_code, exists_decode_of_mem_phaseRows, fun _ => decodePhase_reserved⟩

/-- Settles O17: a read word decodes by its address, and each read returns the register of that address. -/
theorem everyReadReturnsItsRegister : Obligations.EveryReadReturnsItsRegister := by
  intro addr data s
  have hdecode : decodeAccess (accessWord false addr data) = decodeRead addr data :=
    decodeAccess_accessWord false addr data
  refine ⟨by rw [hdecode]; exact exec_decodeRead addr data s, ?_⟩
  rintro (h7 | rfl)
  · exact s.blk.readRegister_unmapped h7
  · rfl

end Sys2Proof.Proofs
end

section
/-! SUPPORT. What one event does: which operation a step runs and when it stops (R7, R60, R140, R200), and each host access
on a busy block and on a free one (R65, R111 to R118). -/

namespace Sys2Proof.Machine

open Sys2Proof.Safety

variable {s t : State}

/-! ## Where an operation and a step stop -/

/-- Every operation completes but the sample beyond the frame. -/
theorem exec_completes {i : Instr} (h : ¬(i = .bitSettle ∧ s.blk.timer = 1 ∧ 40 ≤ s.blk.bitidx.toNat)) :
    ∃ t, exec i s = .next t := by
  cases hi : i.isAccess with
  | true =>
    obtain ⟨t, ht, -⟩ := exec_access hi s
    exact ⟨t, ht⟩
  | false =>
    cases i with
    | idle | rstLow | relWait | presLow | presHigh | presOk | bitWaitHigh | bitWaitLow | frameComplete | timedOut =>
      exact ⟨_, rfl⟩
    | bitSettle =>
      obtain ⟨-, e⟩ | ⟨-, -, f, -, e⟩ | ⟨ht, h40, -⟩ := execBitSettle_cases s
      · exact ⟨_, e⟩
      · exact ⟨_, e⟩
      · exact absurd ⟨rfl, ht, h40⟩ h
    | _ => cases hi

/-- The sample beyond the frame faults (R150). -/
theorem exec_bitSettle_beyondFrame (ht : s.blk.timer = 1) (hi : 40 ≤ s.blk.bitidx.toNat) :
    exec .bitSettle s = .fault .frameIndexOutOfRange := by
  obtain ⟨hne, -⟩ | ⟨-, hlt, -⟩ | ⟨-, -, e⟩ := execBitSettle_cases s
  · exact absurd ht hne
  · omega
  · exact e

/-- No operation is refused. -/
theorem exec_ne_refused (i : Instr) (s : State) (r : Refusal) : exec i s ≠ .refused r := by
  by_cases h : i = .bitSettle ∧ s.blk.timer = 1 ∧ 40 ≤ s.blk.bitidx.toNat
  · obtain ⟨rfl, ht, hi⟩ := h
    simp [exec_bitSettle_beyondFrame ht hi]
  · obtain ⟨t, ht⟩ := exec_completes h
    simp [ht]

/-- An illegal build is one with a parameter outside R7's ranges. -/
theorem legal_eq_false_iff (c : Config.Build) :
    c.legal = false ↔ c.tResetUs < 18001 ∨ 2 ^ 32 ≤ c.tResetUs ∨ c.tReleaseUs < 20 ∨ 40 < c.tReleaseUs ∨
      c.tSettleUs < 1 ∨ 2 ^ 16 ≤ c.tSettleUs := by
  simp only [Config.Build.legal, Bool.and_eq_false_iff, decide_eq_false_iff_not]
  omega

/-- A step is refused for an illegal build, and for nothing else (R7). -/
theorem step_eq_refused_iff : step s = .refused .illegalBuildParameter ↔ s.cfg.legal = false := by
  cases hl : s.cfg.legal with
  | false => simp [step, hl]
  | true =>
    refine iff_of_false (fun h => ?_) (by decide)
    rw [step, if_pos hl] at h
    split at h
    · exact exec_ne_refused _ _ _ h
    · exact exec_ne_refused _ _ _ h
    · cases h

/-! ## The operation a step runs -/

/-- A step that takes a host access (R81). -/
theorem step_access {w : AccessWord} {es : List Event} (hl : s.cfg.legal = true) (he : s.events = .access w :: es) :
    step s = exec (decodeAccess w) { s with events := es } := by
  simp [step, hl, takeEvent, he]

/-- A step that takes a Tick (R140). -/
theorem step_tick {level : Level} {es : List Event} (hl : s.cfg.legal = true) (he : s.events = .tick level :: es) :
    step s = exec s.blk.phase.operation { s with events := es, line := level } := by
  simp [step, hl, takeEvent, he, sampleLine]

/-- A step with nothing in store is a Tick of a free level (assumption log 3). -/
theorem step_nil (hl : s.cfg.legal = true) (he : s.events = []) :
    step s = exec s.blk.phase.operation { s with line := Config.lineDraw s.draws, draws := s.draws + 1 } := by
  simp [step, hl, takeEvent_nil he, sampleLine]

/-- In a legal build a host access is its operation (R81). -/
theorem perform_access (hl : s.cfg.legal = true) (w : AccessWord) : perform (.access w) s = exec (decodeAccess w) s :=
  step_access (s := { s with events := .access w :: s.events }) hl rfl

/-- Several events are the first one and then the others. -/
theorem performAll_cons {e : Event} {es : List Event} (h : perform e s = .next t) :
    performAll (e :: es) s = performAll es t := by
  simp only [performAll, h, andThen]

/-! ## Host accesses -/

/-- An accepted START (R111). -/
theorem exec_start_free (hb : s.blk.busy = false) : exec .start s = .next (s.onBlock (Block.begin s.cfg)) :=
  hostWrite_whenNotBusy_free _ hb

/-- CLEAR while busy (R112). -/
theorem exec_clear_busy (hb : s.blk.busy = true) : exec .clear s = .next (s.onBlock Block.clearProgerr) := by
  simp [exec, execClear, hostWrite, State.onBlock, hb]

/-- CLEAR while not busy (R112). -/
theorem exec_clear_free (hb : s.blk.busy = false) : exec .clear s = .next (s.onBlock fun b => b.clearProgerr.toIdle) := by
  simp [exec, execClear, hostWrite, State.onBlock, hb]

/-- An accepted write to POLL_US (R117). -/
theorem exec_wrPollUs_free (hb : s.blk.busy = false) (data : Word) :
    exec (.wrPollUs data) s = .next (s.onBlock fun b => { b with pollUs := legalTiming data }) :=
  hostWrite_whenNotBusy_free _ hb

/-- An accepted write to BUDGET (R118). -/
theorem exec_wrBudget_free (hb : s.blk.busy = false) (data : Word) :
    exec (.wrBudget data) s = .next (s.onBlock fun b => { b with budget := legalTiming data }) :=
  hostWrite_whenNotBusy_free _ hb

/-- STATUS after an accepted START: BUSY, ResetAsserted, and PROGERR and HAVE as they were (R37, R111). -/
theorem Block.begin_status (cfg : Config.Build) (b : Block) :
    (b.begin cfg).status =
      0x0101#16 ||| (if b.progerr then 0x0080#16 else 0#16) ||| (if b.haveReading then 0x0040#16 else 0#16) := by
  have hfields : (b.begin cfg).status = 0#2 ++ 0#3 ++ 1#3 ++ BitVec.ofBool b.progerr ++ BitVec.ofBool b.haveReading ++
      0#2 ++ 0#1 ++ 0#1 ++ 0#1 ++ 1#1 := rfl
  rw [hfields]
  cases b.progerr <;> cases b.haveReading <;> rfl

/-- The event of an accepted write to POLL_US. -/
theorem perform_pollUs_free (hl : s.cfg.legal = true) (hb : s.blk.busy = false) {p : Word} (hp : p ≠ 0) :
    perform (AsmLine.wr .pollUs p).event s = .next { s with blk := { s.blk with pollUs := p } } := by
  have hdecode : decodeAccess (AsmLine.wr .pollUs p).word = .wrPollUs p := decodeAccess_accessWord true 0x4 p
  rw [AsmLine.event, perform_access hl, hdecode, exec_wrPollUs_free hb, legalTiming_of_ne_zero hp]
  rfl

/-- The event of an accepted write to BUDGET. -/
theorem perform_budget_free (hl : s.cfg.legal = true) (hb : s.blk.busy = false) {v : Word} (hv : v ≠ 0) :
    perform (AsmLine.wr .budget v).event s = .next { s with blk := { s.blk with budget := v } } := by
  have hdecode : decodeAccess (AsmLine.wr .budget v).word = .wrBudget v := decodeAccess_accessWord true 0x5 v
  rw [AsmLine.event, perform_access hl, hdecode, exec_wrBudget_free hb, legalTiming_of_ne_zero hv]
  rfl

/-! ## Host accesses while busy (R65) -/

/-- The block with this PROGERR. -/
def Block.setProgerr (v : Bool) (b : Block) : Block := { b with progerr := v }

/-- The machine with this PROGERR and this read data: all that a host access changes while busy. -/
def withHostPart (v : Bool) (rdata : Word) (s : State) : State := { s with blk := s.blk.setProgerr v, rdata := rdata }

theorem sameButProgerr_setProgerr (v : Bool) (b : Block) : sameButProgerr (b.setProgerr v) b := rfl

/-- While busy a host access changes at most PROGERR and the read data (R65, R100). -/
theorem AccessEffect.of_busy {i : Instr} (h : AccessEffect s i t) (hb : s.blk.busy = true) :
    ∃ v rdata, t = withHostPart v rdata s := by
  cases h with
  | read | ignored | rejected | clearedBusy => exact ⟨_, _, rfl⟩
  | begun hfree | clearedFree hfree | pollUsSet hfree | budgetSet hfree => simp [hb] at hfree

theorem Block.waitStep_setProgerr {onSuccess : Block → Block} {b : Block} (v : Bool) (target : Level) (code : ErrCode)
    (fp : FailPoint) (line : Level) (hs : onSuccess (b.setProgerr v) = (onSuccess b).setProgerr v) :
    (b.setProgerr v).waitStep target code fp onSuccess line =
      (b.waitStep target code fp onSuccess line).setProgerr v := by
  simp only [Block.waitStep, apply_ite (Block.setProgerr v), ← hs]
  rfl

theorem Block.timedStep_setProgerr {onLast : Block → Block} {b : Block} (v : Bool)
    (hs : onLast (b.setProgerr v) = (onLast b).setProgerr v) :
    (b.setProgerr v).timedStep onLast = (b.timedStep onLast).setProgerr v := by
  simp only [Block.timedStep, apply_ite (Block.setProgerr v), ← hs]
  rfl

theorem Block.complete_setProgerr (v : Bool) (b : Block) : (b.setProgerr v).complete = b.complete.setProgerr v := by
  simp only [Block.complete, apply_ite (Block.setProgerr v)]
  rfl

/-- A micro-operation does its work whatever PROGERR and the read data are (R140). -/
theorem exec_withHostPart {i : Instr} (hi : i.isAccess = false) (v : Bool) (rdata : Word) (h : exec i s = .next t) :
    exec i (withHostPart v rdata s) = .next (withHostPart v rdata t) := by
  have hstep {f : Block → Block} (hf : f (s.blk.setProgerr v) = (f s.blk).setProgerr v) (he : engineStep f s = .next t) :
      engineStep f (withHostPart v rdata s) = .next (withHostPart v rdata t) := by
    obtain rfl := Host.Outcome.next.inj he
    simp only [engineStep, State.onBlock, withHostPart, hf]
  cases i with
  | idle | frameComplete | timedOut | presOk => exact hstep rfl h
  | rstLow | relWait => exact hstep (Block.timedStep_setProgerr v rfl) h
  | presLow | presHigh | bitWaitHigh => exact hstep (Block.waitStep_setProgerr v _ _ _ _ rfl) h
  | bitWaitLow =>
    refine hstep (Block.waitStep_setProgerr v _ _ _ _ ?_) h
    rw [apply_ite (Block.setProgerr v), ← Block.complete_setProgerr]
    rfl
  | bitSettle =>
    obtain ⟨ht, e⟩ | ⟨ht, hi, f, hf, e⟩ | ⟨-, -, e⟩ := execBitSettle_cases s
    · exact (if_neg ht).trans (hstep rfl (e.symm.trans h))
    · obtain rfl := Host.Outcome.next.inj (e.symm.trans h)
      obtain ⟨hne, -⟩ | ⟨-, -, g, hg, eg⟩ | ⟨-, h40, -⟩ := execBitSettle_cases (withHostPart v rdata s)
      · exact absurd ht hne
      · obtain rfl : f = g := Option.some.inj (hf.symm.trans hg)
        exact eg
      · exact absurd hi (Nat.not_lt.2 h40)
    · cases e.symm.trans h
  | _ => cases hi

end Sys2Proof.Machine
end

section
/-! SUPPORT. Everything that a micro-operation can do (R143 to R153), what of it changes the reading or ends a transaction,
and that every step from a state that meets the invariant completes (R200). -/

namespace Sys2Proof.Machine

open Sys2Proof.Safety

variable {s t : State}

/-! ## Everything that a micro-operation can do -/

/-- The phases that one of the engine's phases may enter next while its transaction goes on (R144 to R151). -/
def nextPhases : List (Phase × Phase) := [
  (.rstLow, .relWait), (.relWait, .presLow), (.presLow, .presHigh), (.presHigh, .presOk), (.presOk, .bitWaitHigh),
  (.bitWaitHigh, .bitSettle), (.bitWaitLow, .bitWaitHigh) ]

/-- Everything that the micro-operation of the phase `p` can do to the block, with this level on the line. -/
inductive EngineEffect (p : Phase) (cfg : Config.Build) (line : Level) (b : Block) : Block → Prop where
  /-- No transaction is in flight (R143, R152, R153). -/
  | rest (hp : p = .idle ∨ p = .frameComplete ∨ p = .timedOut) : EngineEffect p cfg line b b
  /-- A timed phase before its last tick, or a wait phase between two samples (R142, R144, R145, R150). -/
  | count (hp : isTimed p = true ∧ b.timer ≠ 1 ∨ p.isWait = true ∧ b.timer ≠ 0) : EngineEffect p cfg line b b.countDown
  /-- The next phase begins (R141). -/
  | enter {n : Phase} (hn : (p, n) ∈ nextPhases) (htimed : isTimed p = true → b.timer = 1)
      (hwait : p.isWait = true → b.timer = 0) (hslot : p = .bitWaitLow → b.bitidx ≠ 40) :
      EngineEffect p cfg line b (b.enter cfg n)
  /-- A missed sample within the budget (R142). -/
  | miss (hp : p.isWait = true) (ht : b.timer = 0) (hb : b.polls.toNat + 1 ≠ b.budget.toNat) :
      EngineEffect p cfg line b b.missedSample
  /-- A missed sample that uses the budget up (R142, R201). -/
  | fail {q : WaitRow} (hq : q ∈ waitRows) (hp : p = q.phase) (ht : b.timer = 0) :
      EngineEffect p cfg line b (b.fail q.code q.fp)
  /-- The sample of a bit (R150). -/
  | sample {f : Frame} (hp : p = .bitSettle) (ht : b.timer = 1) (hi : b.bitidx.toNat < 40) :
      EngineEffect p cfg line b { b with frame := f, bitidx := b.bitidx + 1, phase := .bitWaitLow, polls := 0, timer := 0 }
  /-- The low after the 40th bit (R151, R184). -/
  | complete (hp : p = .bitWaitLow) (ht : b.timer = 0) (hline : line = false) (hi : b.bitidx = 40) :
      EngineEffect p cfg line b b.complete

/-- What a timed phase can do. -/
theorem timedStep_effect {p n : Phase} {cfg : Config.Build} {line : Level} {b : Block} (hp : isTimed p = true)
    (hn : (p, n) ∈ nextPhases) (hw : p.isWait = false) : EngineEffect p cfg line b (b.timedStep (Block.enter cfg n)) := by
  obtain ⟨ht, e⟩ | ⟨ht, e⟩ := timedStep_cases (Block.enter cfg n) b <;> rw [e]
  · exact .enter hn (fun _ => ht) (by simp [hw]) (by rintro rfl; cases hp)
  · exact .count (.inl ⟨hp, ht⟩)

/-- What a wait phase can do, given what its success does. -/
theorem waitStep_effect {q : WaitRow} {cfg : Config.Build} {line : Level} {b : Block} {onSuccess : Block → Block}
    (hq : q ∈ waitRows) (hs : b.timer = 0 → line = q.target → EngineEffect q.phase cfg line b (onSuccess b)) :
    EngineEffect q.phase cfg line b (b.waitStep q.target q.code q.fp onSuccess line) := by
  have hw : q.phase.isWait = true := Laws.isWait_of_mem_waitRows hq
  obtain ⟨ht, e⟩ | ⟨ht, hl, e⟩ | ⟨ht, -, -, e⟩ | ⟨ht, -, hb, e⟩ :=
    waitStep_cases q.target q.code q.fp onSuccess line b <;> rw [e]
  · exact .count (.inr ⟨hw, ht⟩)
  · exact hs ht hl
  · exact .fail hq rfl ht
  · exact .miss hw ht hb

/-- What a wait phase can do that enters another phase on success. -/
theorem waitStep_enter_effect {q : WaitRow} {n : Phase} {cfg : Config.Build} {line : Level} {b : Block} (hq : q ∈ waitRows)
    (hn : (q.phase, n) ∈ nextPhases) (hslot : q.phase = .bitWaitLow → b.bitidx ≠ 40) :
    EngineEffect q.phase cfg line b (b.waitStep q.target q.code q.fp (Block.enter cfg n) line) := by
  have ht : isTimed q.phase = false := Laws.isTimed_of_isWait (Laws.isWait_of_mem_waitRows hq)
  exact waitStep_effect hq fun h0 _ => .enter hn (by simp [ht]) (fun _ => h0) hslot

/-- A completed micro-operation did one of the listed things to the block. -/
theorem engineEffect_of_exec {p : Phase} (h : exec p.operation s = .next t) : EngineEffect p s.cfg s.line s.blk t.blk := by
  have hstep {f : Block → Block} (hf : EngineEffect p s.cfg s.line s.blk (f s.blk)) (he : engineStep f s = .next t) :
      EngineEffect p s.cfg s.line s.blk t.blk := by
    obtain rfl := Host.Outcome.next.inj he
    exact hf
  cases p with
  | idle => exact hstep (.rest (.inl rfl)) h
  | frameComplete => exact hstep (.rest (.inr (.inl rfl))) h
  | timedOut => exact hstep (.rest (.inr (.inr rfl))) h
  | rstLow | relWait => exact hstep (timedStep_effect rfl (by decide) rfl) h
  | presOk => exact hstep (.enter (by decide) nofun nofun nofun) h
  | presLow => exact hstep (waitStep_enter_effect (q := waitRows[0]) (List.getElem_mem _) (by decide) nofun) h
  | presHigh => exact hstep (waitStep_enter_effect (q := waitRows[1]) (List.getElem_mem _) (by decide) nofun) h
  | bitWaitHigh => exact hstep (waitStep_enter_effect (q := waitRows[2]) (List.getElem_mem _) (by decide) nofun) h
  | bitSettle =>
    obtain ⟨ht, e⟩ | ⟨ht, hi, f, -, e⟩ | ⟨-, -, e⟩ := execBitSettle_cases s
    · exact hstep (.count (.inl ⟨rfl, ht⟩)) (e.symm.trans h)
    · exact hstep (.sample rfl ht hi) (e.symm.trans h)
    · cases e.symm.trans h
  | bitWaitLow =>
    refine hstep (waitStep_effect (q := waitRows[3]) (List.getElem_mem _) fun ht hline => ?_) h
    split
    case isTrue hi => exact .complete rfl ht hline hi
    case isFalse hi => exact .enter (by decide) nofun (fun _ => ht) (fun _ => hi)

/-- A micro-operation is that of a phase (R84, R140). -/
theorem exists_operation {i : Instr} (hi : i.isAccess = false) : ∃ p : Phase, p.operation = i := by
  cases i with
  | idle => exact ⟨.idle, rfl⟩
  | rstLow => exact ⟨.rstLow, rfl⟩
  | relWait => exact ⟨.relWait, rfl⟩
  | presLow => exact ⟨.presLow, rfl⟩
  | presHigh => exact ⟨.presHigh, rfl⟩
  | presOk => exact ⟨.presOk, rfl⟩
  | bitWaitHigh => exact ⟨.bitWaitHigh, rfl⟩
  | bitSettle => exact ⟨.bitSettle, rfl⟩
  | bitWaitLow => exact ⟨.bitWaitLow, rfl⟩
  | frameComplete => exact ⟨.frameComplete, rfl⟩
  | timedOut => exact ⟨.timedOut, rfl⟩
  | _ => cases hi

/-- Everything that an operation can do: a host access has one of its effects, a micro-operation one of its own. -/
theorem exec_cases {i : Instr} (h : exec i s = .next t) :
    (i.isAccess = true ∧ AccessEffect s i t) ∨
      ∃ p : Phase, p.operation = i ∧ EngineEffect p s.cfg s.line s.blk t.blk := by
  cases hi : i.isAccess with
  | true => exact .inl ⟨rfl, accessEffect_of_exec hi h⟩
  | false =>
    obtain ⟨p, rfl⟩ := exists_operation hi
    exact .inr ⟨p, rfl, engineEffect_of_exec h⟩

/-! ## What changes the reading, and what ends a transaction -/

/-- The last reading: TEMP, HUM and HAVE (R27 to R29). -/
def Block.reading (b : Block) : Word × Word × Bool := (b.temp, b.hum, b.haveReading)

/-- No host access changes the reading (R114, R115). -/
theorem AccessEffect.reading {i : Instr} (h : AccessEffect s i t) : t.blk.reading = s.blk.reading := by
  cases h <;> rfl

/-- A micro-operation changes the reading where a frame of 40 bits passes its checksum (R61.5, R185, R186). -/
theorem EngineEffect.reading {p : Phase} {cfg : Config.Build} {line : Level} {b c : Block}
    (h : EngineEffect p cfg line b c) :
    c.reading = b.reading ∨
      (p = .bitWaitLow ∧ b.timer = 0 ∧ line = false ∧ b.bitidx = 40 ∧ b.frame.checksumOk = true ∧
        c.haveReading = true ∧ c.phase = .frameComplete) := by
  cases h with
  | rest | count | enter | miss | fail | sample => exact .inl rfl
  | complete hp ht hline hi =>
    obtain ⟨hok, e⟩ | ⟨-, e⟩ := complete_cases b <;> rw [e]
    · exact .inr ⟨hp, ht, hline, hi, hok, rfl, rfl⟩
    · exact .inl rfl

/-- A phase that another one enters is busy (R36). -/
theorem busy_of_nextPhase {p n : Phase} {b : Block} (hn : (p, n) ∈ nextPhases) (hb : b.phase = n) : b.busy = true := by
  subst hb
  unfold Block.busy
  cases hp : b.phase <;> simp [nextPhases, hp] at hn ⊢

/-- A transaction ends where a wait phase fails, or where the frame is complete (R202). -/
theorem EngineEffect.ended {cfg : Config.Build} {line : Level} {b c : Block} (h : EngineEffect b.phase cfg line b c)
    (hb : b.busy = true) (hc : c.busy = false) :
    (∃ q ∈ waitRows, b.phase = q.phase ∧ c = b.fail q.code q.fp) ∨
      (b.phase = .bitWaitLow ∧ b.bitidx = 40 ∧ c = b.complete) := by
  have hkept {d : Block} (e : d = c) (hd : d.busy = true) :
      (∃ q ∈ waitRows, b.phase = q.phase ∧ c = b.fail q.code q.fp) ∨
        (b.phase = .bitWaitLow ∧ b.bitidx = 40 ∧ c = b.complete) := by
    simp [← e, hd] at hc
  cases h with
  | rest | count | miss => exact hkept rfl hb
  | enter hn => exact hkept rfl (busy_of_nextPhase hn rfl)
  | sample => exact hkept rfl rfl
  | fail hq hp => exact .inl ⟨_, hq, hp, rfl⟩
  | complete hp _ _ hi => exact .inr ⟨hp, hi, rfl⟩

/-- A step that ends a transaction without a Reset is a Tick: a host access leaves the phase (R65). -/
theorem exists_engineEffect_of_step (hs : step s = .next t) (hb : s.blk.busy = true) (hc : t.blk.busy = false)
    (hreset : s.events.head? ≠ some .reset) : ∃ line, EngineEffect s.blk.phase s.cfg line s.blk t.blk := by
  obtain ⟨-, ⟨level, u, hu, he⟩ | ⟨w, u, hu, he⟩ | ⟨u, hu, rfl⟩⟩ := step_cases hs
  all_goals
    obtain ⟨hcfg, hblk, -, -⟩ := takeEvent_frame s
    simp only [hu] at hcfg hblk
  · rw [← hcfg, ← hblk]
    exact ⟨level, engineEffect_of_exec he⟩
  · obtain ⟨v, rdata, rfl⟩ := (accessEffect_of_exec (isAccess_decodeAccess w) he).of_busy (hblk ▸ hb)
    have hbusy : u.blk.busy = false := hc
    simp [hblk, hb] at hbusy
  · unfold takeEvent at hu
    split at hu
    case h_1 => cases hu
    case h_2 e es he =>
      cases hu
      simp [he] at hreset

end Sys2Proof.Machine

namespace Sys2Proof.Laws

open Sys2Proof.Machine Sys2Proof.Safety

variable {s : State}

/-! ## From a state that meets the invariant -/

/-- A Tick completes: in BIT_SETTLE the bit index is at most 39 (R26, R150). -/
theorem exists_exec_operation_of_inv (h : Inv s) {u : State} (hu : u.blk = s.blk) :
    ∃ t, exec s.blk.phase.operation u = .next t := by
  refine exec_completes fun ⟨hop, _, h40⟩ => ?_
  have hp : s.blk.phase = .bitSettle := by
    cases hp : s.blk.phase <;> rw [hp] at hop <;> cases hop
  have h39 : s.blk.bitidx.toNat ≤ 39 := h.2.2.before_sample (.inr hp)
  rw [hu] at h40
  omega

/-- Every step completes, whatever event it takes (R200). -/
theorem exists_step_of_inv (h : Inv s) : ∃ t, step s = .next t := by
  have hl : s.cfg.legal = true := h.1
  match he : s.events with
  | [] =>
    rw [step_nil hl he]
    exact exists_exec_operation_of_inv h rfl
  | .tick level :: es =>
    rw [step_tick hl he]
    exact exists_exec_operation_of_inv h rfl
  | .access w :: es =>
    rw [step_access hl he]
    obtain ⟨t, ht, -⟩ := exec_access (isAccess_decodeAccess w) { s with events := es }
    exact ⟨t, ht⟩
  | .reset :: es => exact ⟨_, step_reset hl he⟩

end Sys2Proof.Laws
end

section
/-! The obligations of the step, the invariant and the host accesses (R60, R39, 40_host_access.md). -/

namespace Sys2Proof.Proofs

open Sys2Proof.Machine Sys2Proof.Safety Sys2Proof.Laws

/-- Settles O49, event by event. -/
theorem stepKeepsInv : Obligations.StepKeepsInv := fun _ _ => step_keeps_inv

/-- Settles O48: R43's values meet the invariant in the default build. -/
theorem invHoldsAtReset : Obligations.InvHoldsAtReset := ⟨rfl, reset_blockInv _⟩

/-- Settles O50: no operation but the sample beyond the frame stops, and the invariant keeps BITIDX below it. -/
theorem invStatesAlwaysStep : Obligations.InvStatesAlwaysStep := fun _ => exists_step_of_inv

/-- Settles O2: the step answers `resetEvent`, which is R43's block in the same environment. -/
theorem resetStateIsResetBlockInStandardBuild : Obligations.ResetStateIsResetBlockInStandardBuild :=
  ⟨fun _ _ => step_reset, rfl, rfl⟩

/-- Settles O3: a word decodes to one operation, and a phase's code to the micro-operation of that phase. -/
theorem stepRunsDecodedOperation : Obligations.StepRunsDecodedOperation := by
  refine fun s es i hl => ⟨fun w he hi => ?_, fun level he hi => ?_⟩
  · obtain rfl : decodeAccess w = i := Except.ok.inj hi
    exact step_access hl he
  · obtain rfl : s.blk.phase.operation = i := Except.ok.inj ((decodePhase_code s.blk.phase).symm.trans hi)
    exact step_tick hl he

/-- Settles O4: a Tick runs the micro-operation of the phase, whichever it is. -/
theorem tickDispatchesOnPhase : Obligations.TickDispatchesOnPhase := by
  rintro s level es hl he t rfl
  have hstep (p : Phase) (hp : s.blk.phase = p) : step s = exec p.operation { s with events := es, line := level } := by
    rw [step_tick hl he, hp]
  exact ⟨hstep .idle, hstep .rstLow, hstep .relWait, hstep .presLow, hstep .presHigh, hstep .presOk, hstep .bitWaitHigh,
    hstep .bitSettle, hstep .bitWaitLow, hstep .frameComplete, hstep .timedOut⟩

/-- Settles O5: the level is the environment's draw. -/
theorem emptyStoreTicksWithFreeLevel : Obligations.EmptyStoreTicksWithFreeLevel :=
  fun s hl he => ⟨Config.lineDraw s.draws, step_nil hl he⟩

/-- Settles O6: a step is refused for an illegal build and for nothing else, as no operation is refused. -/
theorem illegalBuildIsRefused : Obligations.IllegalBuildIsRefused := fun s => by
  rw [step_eq_refused_iff, legal_eq_false_iff]

/-- Settles O14: each read returns its register; BITIDX loses no bit in 16. -/
theorem registerReadsReturnRegisters : Obligations.RegisterReadsReturnRegisters := fun _ s =>
  ⟨rfl, rfl, rfl, rfl, s.blk.bitidx.setWidth 16, BitVec.toNat_setWidth_of_le (by decide), rfl⟩

/-- Settles O19: START's word is a CTRL write of 1; a START while busy is a programming error. -/
theorem startBeginsOrIsRejected : Obligations.StartBeginsOrIsRejected :=
  ⟨decodeAccess_accessWord true 0x0 0x0001, fun _ =>
    ⟨exec_start_free, fun hb => exec_of_isProgError (.inl ⟨rfl, hb⟩)⟩⟩

/-- Settles O20: the block after an accepted START has the given STATUS. -/
theorem statusAfterStartShowsBusy : Obligations.StatusAfterStartShowsBusy := by
  intro s t data hb h
  obtain rfl := Host.Outcome.next.inj ((exec_start_free hb).symm.trans h)
  exact congrArg (hostRead · _) (Block.begin_status s.cfg s.blk)

/-- Settles O21: CLEAR's word is a CTRL write of 2. -/
theorem clearReturnsToIdle : Obligations.ClearReturnsToIdle :=
  ⟨decodeAccess_accessWord true 0x0 0x0002, fun _ => ⟨exec_clear_free, exec_clear_busy⟩⟩

/-- Settles O24: an accepted value is stored legalised; a write while busy is a programming error. -/
theorem pollUsWriteIsLegalisedOrRejected : Obligations.PollUsWriteIsLegalisedOrRejected := by
  refine fun data s => ⟨decodeAccess_accessWord true 0x4 data, fun hb h0 => ?_, fun hb h0 => ?_,
    fun hb => exec_of_isProgError (.inr (.inr ⟨data, .inl rfl, hb⟩))⟩
  · rw [h0, exec_wrPollUs_free hb]
    rfl
  · rw [exec_wrPollUs_free hb, legalTiming_of_ne_zero h0]
    rfl

/-- Settles O25, as for POLL_US. -/
theorem budgetWriteIsLegalisedOrRejected : Obligations.BudgetWriteIsLegalisedOrRejected := by
  refine fun data s => ⟨decodeAccess_accessWord true 0x5 data, fun hb h0 => ?_, fun hb h0 => ?_,
    fun hb => exec_of_isProgError (.inr (.inr ⟨data, .inr rfl, hb⟩))⟩
  · rw [h0, exec_wrBudget_free hb]
    rfl
  · rw [exec_wrBudget_free hb, legalTiming_of_ne_zero h0]
    rfl

/-- Settles O26: each of the two writes is accepted, and leaves a legal build that is not busy for the other one. -/
theorem setTimingStoresBoth : Obligations.SetTimingStoresBoth := by
  intro p b s hl hb hp hv
  have hpoll {u : State} (hl : u.cfg.legal = true) (hb : u.blk.busy = false) := perform_pollUs_free hl hb hp
  have hbudget {u : State} (hl : u.cfg.legal = true) (hb : u.blk.busy = false) := perform_budget_free hl hb hv
  constructor
  · exact (performAll_cons (hpoll hl hb)).trans (performAll_cons (hbudget hl hb))
  · exact (performAll_cons (hbudget hl hb)).trans (performAll_cons (hpoll hl hb))

/-- Settles O37: every other operation completes. -/
theorem onlySampleBeyondFrameStops : Obligations.OnlySampleBeyondFrameStops := by
  refine fun i s => ⟨exec_ne_refused i s, fun ⟨e, he⟩ => ?_, ?_⟩
  · by_contra hin
    obtain ⟨t, ht⟩ := exec_completes hin
    cases ht.symm.trans he
  · rintro ⟨rfl, ht, hi⟩
    exact ⟨_, exec_bitSettle_beyondFrame ht hi⟩

/-- Settles O40: a micro-operation changes the block alone, and not the host's part of it. -/
theorem engineLeavesHostSettings : Obligations.EngineLeavesHostSettings := by
  intro i s t hi h
  obtain ⟨ht, hhost⟩ := exec_engine_frame hi h
  obtain ⟨hpoll, hbudget, hprog⟩ : t.blk.pollUs = s.blk.pollUs ∧ t.blk.budget = s.blk.budget ∧
      t.blk.progerr = s.blk.progerr := by simpa [Block.hostSettings] using hhost
  rw [ht]
  exact ⟨hpoll, hbudget, hprog, rfl, rfl, rfl, rfl, rfl⟩

/-- Settles O41: while busy a host access changes at most PROGERR and the read data. -/
theorem hostAccessNeverDisturbsTransaction : Obligations.HostAccessNeverDisturbsTransaction := by
  intro w s hb
  obtain ⟨t, ht, heffect⟩ := exec_access (isAccess_decodeAccess w) s
  obtain ⟨v, rdata, rfl⟩ := heffect.of_busy hb
  exact ⟨_, ht, sameButProgerr_setProgerr v s.blk, rfl, rfl, rfl, rfl⟩

/-- Settles O42: the Tick does its work whatever PROGERR and the read data are, and the access changes no more. -/
theorem hostAccessBeforeTickLeavesEngineAlone : Obligations.HostAccessBeforeTickLeavesEngineAlone := by
  intro w level s t u hb ht hu
  obtain ⟨hl, he⟩ := perform_tick_eq_next_iff.1 hu
  rw [perform_access hl] at ht
  obtain ⟨v, rdata, rfl⟩ := (accessEffect_of_exec (isAccess_decodeAccess w) ht).of_busy hb
  have htick := exec_withHostPart (isAccess_operation s.blk.phase) v rdata he
  exact ⟨_, perform_tick_eq_next_iff.2 ⟨hl, htick⟩, sameButProgerr_setProgerr v u.blk⟩

/-- Settles O43: of everything an operation can do, only the commit of a good frame changes the reading. -/
theorem onlyGoodFrameChangesReading : Obligations.OnlyGoodFrameChangesReading := by
  intro i s t h
  have hkept (hr : t.blk.reading = s.blk.reading) :
      t.blk.temp = s.blk.temp ∧ t.blk.hum = s.blk.hum ∧ t.blk.haveReading = s.blk.haveReading := by
    simpa [Block.reading] using hr
  obtain ⟨-, heffect⟩ | ⟨p, rfl, heffect⟩ := exec_cases h
  · exact .inl (hkept heffect.reading)
  · obtain hr | ⟨rfl, hgood⟩ := heffect.reading
    · exact .inl (hkept hr)
    · exact .inr ⟨rfl, hgood⟩

/-- Settles O45, effect by effect. -/
theorem onlyStartAndClearMoveTheSequencer : Obligations.OnlyStartAndClearMoveTheSequencer := by
  intro i s t h hi
  cases accessEffect_of_exec hi h with
  | begun hb => exact ⟨fun _ => ⟨hb, .inl rfl⟩, fun hne => absurd rfl hne, fun hne => absurd rfl hne⟩
  | clearedFree hb => exact ⟨fun _ => ⟨hb, .inr rfl⟩, fun hne => absurd rfl hne, fun hne => absurd rfl hne⟩
  | pollUsSet hb d => exact ⟨fun hne => by simp at hne, fun _ => ⟨hb, d, rfl⟩, fun hne => absurd rfl hne⟩
  | budgetSet hb d => exact ⟨fun hne => by simp at hne, fun hne => absurd rfl hne, fun _ => ⟨hb, d, rfl⟩⟩
  | read | ignored | rejected | clearedBusy =>
    exact ⟨fun hne => by simp at hne, fun hne => absurd rfl hne, fun hne => absurd rfl hne⟩

/-- Settles O52: while busy a host access leaves the phase; a Tick ends the transaction by a failed wait or by a complete
frame, and the invariant bounds BITIDX in the phase it ends. -/
theorem transactionsEndInOneOutcome : Obligations.TransactionsEndInOneOutcome := by
  rintro s t ⟨-, hreach, hcount⟩ hb hreset hs hc
  obtain ⟨line, heffect⟩ := exists_engineEffect_of_step hs hb hc hreset
  have hearly := hreach.early_bitidx
  obtain ⟨q, hq, hp, e⟩ | ⟨hp, hi, e⟩ := heffect.ended hb hc
  · simp only [waitRows, List.mem_cons, List.not_mem_nil, or_false] at hq
    rw [e]
    obtain rfl | rfl | rfl | rfl := hq
    · exact ⟨rfl, rfl, rfl, .inr (.inr (.inl ⟨rfl, rfl, rfl, hp, hearly (by simp [hp])⟩))⟩
    · exact ⟨rfl, rfl, rfl, .inr (.inr (.inr (.inl ⟨rfl, rfl, rfl, hp, hearly (by simp [hp])⟩)))⟩
    · exact ⟨rfl, rfl, rfl, .inr (.inr (.inr (.inr (.inl ⟨rfl, rfl, rfl, hp, hcount.before_sample (.inl hp)⟩))))⟩
    · exact ⟨rfl, rfl, rfl, .inr (.inr (.inr (.inr (.inr
        ⟨rfl, rfl, rfl, hp, hcount.after_sample hp, hreach.bitidx_bound⟩))))⟩
  · obtain ⟨hok, e'⟩ | ⟨hbad, e'⟩ := complete_cases s.blk <;> rw [e, e']
    · exact ⟨rfl, rfl, rfl, .inl ⟨rfl, rfl, rfl, hp, hi, hok⟩⟩
    · exact ⟨rfl, rfl, rfl, .inr (.inl ⟨rfl, rfl, rfl, hp, hi, hbad⟩)⟩

end Sys2Proof.Proofs
end

section
/-! SUPPORT. Each branch of a wait phase, of the bit sampler and of the frame's end, as an equation (R142, R150, R184). -/

namespace Sys2Proof.Machine

open Sys2Proof.Safety

variable {s : State} {q : WaitRow}

/-! ## Timed phases (R144, R145) -/

/-- The last tick of a timed phase. -/
theorem engineStep_timedStep_last (ht : s.blk.timer = 1) (onLast : Block → Block) :
    engineStep (Block.timedStep onLast) s = .next (s.onBlock onLast) := engineStep_congr (if_pos ht)

/-- The other ticks of a timed phase. -/
theorem engineStep_timedStep_count (ht : s.blk.timer ≠ 1) (onLast : Block → Block) :
    engineStep (Block.timedStep onLast) s = .next (s.onBlock Block.countDown) := engineStep_congr (if_neg ht)

/-! ## Wait phases (R142) -/

theorem Block.waitStep_of_target {b : Block} (ht : b.timer = 0) {target line : Level} (hline : line = target)
    (code : ErrCode) (fp : FailPoint) (onSuccess : Block → Block) :
    b.waitStep target code fp onSuccess line = onSuccess b := by
  simp [Block.waitStep, ht, hline]

theorem Block.waitStep_of_budget_used {b : Block} (ht : b.timer = 0) {target line : Level} (hline : line ≠ target)
    (hb : b.polls.toNat + 1 = b.budget.toNat) (code : ErrCode) (fp : FailPoint) (onSuccess : Block → Block) :
    b.waitStep target code fp onSuccess line = b.fail code fp := by
  simp [Block.waitStep, ht, hline, hb]

theorem Block.waitStep_of_miss {b : Block} (ht : b.timer = 0) {target line : Level} (hline : line ≠ target)
    (hb : b.polls.toNat + 1 ≠ b.budget.toNat) (code : ErrCode) (fp : FailPoint) (onSuccess : Block → Block) :
    b.waitStep target code fp onSuccess line = b.missedSample := by
  simp [Block.waitStep, ht, hline, hb]

/-- The four wait phases are the bounded wait with the data of their rows (R146, R147, R149, R151). -/
theorem exists_exec_waitRow (hq : q ∈ waitRows) (s : State) : ∃ onSuccess,
    exec q.op s = engineStep (Block.waitStep q.target q.code q.fp onSuccess s.line) s := by
  simp only [waitRows, List.mem_cons, List.not_mem_nil, or_false] at hq
  obtain rfl | rfl | rfl | rfl := hq <;> exact ⟨_, rfl⟩

/-- The phase of a wait row runs the row's operation. -/
theorem operation_of_mem_waitRows (hq : q ∈ waitRows) : q.phase.operation = q.op := by
  simp only [waitRows, List.mem_cons, List.not_mem_nil, or_false] at hq
  obtain rfl | rfl | rfl | rfl := hq <;> rfl

/-- The errors of the wait phases end in TIMED_OUT (R201). -/
theorem endPhase_of_mem_waitRows (hq : q ∈ waitRows) : q.code.endPhase = .timedOut := by
  simp only [waitRows, List.mem_cons, List.not_mem_nil, or_false] at hq
  obtain rfl | rfl | rfl | rfl := hq <;> rfl

/-- Between two samples. -/
theorem exec_wait_countDown (hq : q ∈ waitRows) (ht : s.blk.timer ≠ 0) :
    exec q.op s = .next (s.onBlock Block.countDown) := by
  obtain ⟨onSuccess, e⟩ := exists_exec_waitRow hq s
  exact e.trans (engineStep_congr (Block.waitStep_of_timer_ne_zero ht _ _ _ _ _))

/-- A missed sample that uses the budget up. -/
theorem exec_wait_fail (hq : q ∈ waitRows) (ht : s.blk.timer = 0) (hline : s.line ≠ q.target)
    (hb : s.blk.polls.toNat + 1 = s.blk.budget.toNat) : exec q.op s = .next (s.onBlock (Block.fail q.code q.fp)) := by
  obtain ⟨onSuccess, e⟩ := exists_exec_waitRow hq s
  exact e.trans (engineStep_congr (Block.waitStep_of_budget_used ht hline hb _ _ _))

/-- A missed sample within the budget. -/
theorem exec_wait_miss (hq : q ∈ waitRows) (ht : s.blk.timer = 0) (hline : s.line ≠ q.target)
    (hb : s.blk.polls.toNat + 1 ≠ s.blk.budget.toNat) : exec q.op s = .next (s.onBlock Block.missedSample) := by
  obtain ⟨onSuccess, e⟩ := exists_exec_waitRow hq s
  exact e.trans (engineStep_congr (Block.waitStep_of_miss ht hline hb _ _ _))

/-- The ticks to the next sample lose no bit in the 32-bit timer (R142). -/
theorem setWidth_sub_one_toNat {p : Word} (hp : 1 ≤ p.toNat) : (p.setWidth 32 - 1).toNat = p.toNat - 1 := by
  have hlt : p.toNat < 2 ^ 16 := p.isLt
  have hw : (p.setWidth 32).toNat = p.toNat := BitVec.toNat_setWidth_of_le (by decide)
  bv_omega

/-- The block with this timer and this count of polls. -/
def Block.withCount (timer : BitVec 32) (polls : Word) (b : Block) : Block := { b with timer := timer, polls := polls }

/-- What a wait phase counts can be set afresh. -/
theorem Block.withCount_congr {timer : BitVec 32} {polls : Word} {b b₀ : Block} (h : b = b₀.withCount timer polls)
    (timer' : BitVec 32) (polls' : Word) : b.withCount timer' polls' = b₀.withCount timer' polls' := by
  rw [h]
  rfl

/-! ## The bit sampler (R150) -/

/-- A bit shifted into byte `k` doubles it, mod 256, and adds to it; the other bytes stay. -/
theorem frameByte_shiftInto_toNat {f g : Frame} {k : Nat} {l : Level} (h : f.shiftInto k l = some g) (j : Nat) :
    (frameByte g j).toNat =
      if j = k then (2 * (frameByte f j).toNat + l.toNat) % 256 else (frameByte f j).toNat := by
  rw [Laws.frameByte_shiftInto h]
  split
  case isTrue hj => rw [hj, shiftBit_toNat]
  case isFalse => rfl

/-- On its last tick BIT_SETTLE takes the line into byte `bitidx div 8`. -/
theorem exec_bitSettle_last (ht : s.blk.timer = 1) (hi : s.blk.bitidx.toNat < 40) :
    ∃ f, s.blk.frame.shiftInto (s.blk.bitidx.toNat / 8) s.line = some f ∧ exec .bitSettle s = .next (s.onBlock fun b =>
      { b with frame := f, bitidx := b.bitidx + 1, phase := .bitWaitLow, polls := 0, timer := 0 }) := by
  obtain ⟨hne, -⟩ | ⟨-, -, hlast⟩ | ⟨-, h40, -⟩ := execBitSettle_cases s
  · exact absurd ht hne
  · exact hlast
  · omega

/-! ## The end of the frame (R184) -/

/-- The low after the 40th bit completes the frame (R151). -/
theorem exec_bitWaitLow_complete (ht : s.blk.timer = 0) (hline : s.line = false) (hi : s.blk.bitidx = 40) :
    exec .bitWaitLow s = .next (s.onBlock Block.complete) :=
  engineStep_congr ((Block.waitStep_of_target ht hline _ _ _).trans (if_pos hi))

theorem Block.complete_of_checksumOk {b : Block} (h : b.frame.checksumOk = true) : b.complete = b.commit b.frame := if_pos h

theorem Block.complete_of_not_checksumOk {b : Block} (h : ¬b.frame.checksumOk = true) :
    b.complete = b.fail .checksumMismatch .checksum := if_neg h

end Sys2Proof.Machine
end

section
/-! The obligations of single Ticks (41_bus_engine.md, 42_checksum_decode.md). -/

namespace Sys2Proof.Proofs

open Sys2Proof.Machine Sys2Proof.Safety Sys2Proof.Laws

/-- Settles O28: both phases are `timedStep`, which ends on timer 1. -/
theorem resetAndReleaseTicks : Obligations.ResetAndReleaseTicks := by
  intro s
  exact ⟨fun ht => engineStep_timedStep_last ht _, fun ht => engineStep_timedStep_count ht _,
    fun ht => engineStep_timedStep_last ht _, fun ht => engineStep_timedStep_count ht _⟩

/-- Settles O29: PRES_OK is `enter` in every state. -/
theorem presenceConfirmedLastsOneTick : Obligations.PresenceConfirmedLastsOneTick := fun _ => rfl

/-- Settles O30: the first branch of the bounded wait. -/
theorem waitPhasesCountDownBetweenSamples : Obligations.WaitPhasesCountDownBetweenSamples :=
  fun _ hq _ => exec_wait_countDown hq

/-- Settles O31: the last branch of the bounded wait; a POLL_US other than 0 less one is the same number in 32 bits. -/
theorem waitPhasesCountMissedSamples : Obligations.WaitPhasesCountMissedSamples := by
  intro q hq s ht hline hb hpoll
  have hpos : 1 ≤ s.blk.pollUs.toNat := Nat.one_le_iff_ne_zero.2 fun h0 => hpoll (BitVec.eq_of_toNat_eq h0)
  have htimer : s.blk.pollUs.setWidth 32 - 1 = BitVec.ofNat 32 (s.blk.pollUs.toNat - 1) := by
    rw [← setWidth_sub_one_toNat hpos, BitVec.ofNat_toNat, BitVec.setWidth_eq]
  rw [exec_wait_miss hq ht hline hb, ← htimer]
  rfl

/-- Settles O32: the third branch of the bounded wait; the errors of the wait phases end in TIMED_OUT. -/
theorem waitPhasesFailOnUsedBudget : Obligations.WaitPhasesFailOnUsedBudget := by
  intro q hq s ht hline hb
  rw [exec_wait_fail hq ht hline hb, ← endPhase_of_mem_waitRows hq]
  rfl

/-- Settles O33: the second branch of the bounded wait, in each of the four phases. -/
theorem waitPhasesEnterNextOnTarget : Obligations.WaitPhasesEnterNextOnTarget := by
  intro s ht
  have hsuccess {target : Level} (hline : s.line = target) (code : ErrCode) (fp : FailPoint) (onSuccess : Block → Block) :
      engineStep (Block.waitStep target code fp onSuccess s.line) s = .next (s.onBlock onSuccess) :=
    engineStep_congr (Block.waitStep_of_target ht hline code fp onSuccess)
  refine ⟨fun hline => hsuccess hline _ _ _, fun hline => hsuccess hline _ _ _, fun hline => hsuccess hline _ _ _,
    fun hline hi => (hsuccess hline _ _ _).trans ?_⟩
  exact engineStep_congr (g := Block.enter s.cfg .bitWaitHigh) (if_neg hi)

/-- Settles O34: on the last tick the line goes into byte BITIDX div 8; before it the timer counts down. -/
theorem bitSettleSamplesOnLastTick : Obligations.BitSettleSamplesOnLastTick := by
  refine fun s => ⟨fun ht => if_neg ht, fun ht hi => ?_⟩
  obtain ⟨f, hf, e⟩ := exec_bitSettle_last ht hi
  exact ⟨f, e, fun k _ => frameByte_shiftInto_toNat hf k⟩

/-- Settles O35: the frame passes its checksum, and the decoder's values fit in 16 bits. -/
theorem goodFrameIsCommitted : Obligations.GoodFrameIsCommitted := by
  intro s ht hline hi hsum
  obtain ⟨htemp, hhum⟩ := decode_le s.blk.frame
  refine ⟨_, _, toNat_ofNat_of_le_2805 htemp, toNat_ofNat_of_le_2805 hhum, ?_⟩
  exact (exec_bitWaitLow_complete ht hline hi).trans
    (engineStep_congr (Block.complete_of_checksumOk ((checksumOk_iff _).2 hsum)))

/-- Settles O36: the frame fails its checksum. -/
theorem badFrameIsDiscarded : Obligations.BadFrameIsDiscarded := by
  intro s ht hline hi hsum
  exact (exec_bitWaitLow_complete ht hline hi).trans
    (engineStep_congr (Block.complete_of_not_checksumOk fun hok => hsum ((checksumOk_iff _).1 hok)))

end Sys2Proof.Proofs
end

section
/-! SUPPORT. Runs of Ticks by induction on the tick number, and where a block stands after k Ticks of the reset pulse, of a
wait phase and of the settle window (R142, R144, R145, R150, R244). -/

namespace Sys2Proof.Laws

open Sys2Proof.Machine Sys2Proof.Safety

variable {s : State}

/-! ## Runs of Ticks -/

/-- With Ticks in store, and after them too, a step is a Tick: of the first level in store if there is one, of a free level
otherwise (assumption log 3). -/
theorem exists_tick_withTicks (hl : s.cfg.legal = true) (levels : List Level) :
    ∃ u : State, u.cfg = s.cfg ∧ u.blk = s.blk ∧ (∀ l, levels[0]? = some l → u.line = l) ∧
      ∀ t, exec u.blk.phase.operation u = .next t → step (withTicks levels s) = .next (withTicks levels.tail t) := by
  have hop := isAccess_operation s.blk.phase
  cases levels with
  | nil =>
    refine ⟨{ s with events := [], line := Config.lineDraw s.draws, draws := s.draws + 1 }, rfl, rfl, nofun, fun t ht => ?_⟩
    exact (step_nil (s := withTicks [] s) hl rfl).trans (exec_withEvents hop [] ht)
  | cons l ls =>
    refine ⟨sampleLine l s, rfl, rfl, fun _ h => Option.some.inj h, fun t ht => ?_⟩
    exact (step_tick (s := withTicks (l :: ls) s) hl rfl).trans (exec_withEvents hop (ls.map .tick) ht)

/-- A property of the block and of the tick number that every Tick carries on holds at the end of a run of Ticks, and the
run completes. -/
theorem exists_runs_withTicks {cfg : Config.Build} {P : Nat → Block → Prop} {n : Nat} {levels : List Level}
    (hl : cfg.legal = true) (hcfg : s.cfg = cfg) (h0 : P 0 s.blk)
    (hstep : ∀ k < n, ∀ u : State, u.cfg = cfg → P k u.blk → (∀ l, levels[k]? = some l → u.line = l) →
      ∃ t, exec u.blk.phase.operation u = .next t ∧ P (k + 1) t.blk) :
    ∃ t, runs n (withTicks levels s) t ∧ P n t.blk := by
  induction n generalizing s levels P with
  | zero => exact ⟨withTicks levels s, rfl, h0⟩
  | succ n ih =>
    obtain ⟨u, hucfg, hublk, hline, hu⟩ := exists_tick_withTicks (hcfg ▸ hl) levels
    obtain ⟨t, ht, hP⟩ := hstep 0 (Nat.succ_pos n) u (hucfg.trans hcfg) (hublk ▸ h0) hline
    obtain ⟨hframe, -⟩ := exec_engine_frame (isAccess_operation _) ht
    have htcfg : t.cfg = cfg := by rw [hframe]; exact hucfg.trans hcfg
    obtain ⟨v, hv, hPv⟩ := ih (P := fun k => P (k + 1)) htcfg hP fun k hk w hw hPk hwline =>
      hstep (k + 1) (Nat.succ_lt_succ hk) w hw hPk fun l hlev => hwline l (List.getElem?_tail.trans hlev)
    exact ⟨v, runs_succ.2 ⟨_, hu t ht, hv⟩, hPv⟩

/-- A property that everything a micro-operation can do carries on, under the invariant, holds at the end of a run of
Ticks, and the run completes. -/
theorem exists_runs_withTicks_of_inv {P : Nat → Block → Prop} {n : Nat} {levels : List Level} (h : Inv s) (h0 : P 0 s.blk)
    (hstep : ∀ k < n, ∀ (line : Level) (b c : Block), BlockInv s.cfg b → EngineEffect b.phase s.cfg line b c → P k b →
      P (k + 1) c) : ∃ t, runs n (withTicks levels s) t ∧ P n t.blk := by
  obtain ⟨hl, hb⟩ := h
  have hrun : ∃ t, runs n (withTicks levels s) t ∧ BlockInv s.cfg t.blk ∧ P n t.blk := by
    refine exists_runs_withTicks (P := fun k b => BlockInv s.cfg b ∧ P k b) hl rfl ⟨hb, h0⟩
      fun k hk u hcfg ⟨hu, hPk⟩ _ => ?_
    have hinv : Inv u := ⟨hcfg ▸ hl, hcfg ▸ hu⟩
    obtain ⟨t, ht⟩ := exists_exec_operation_of_inv hinv rfl
    obtain ⟨hframe, -⟩ := exec_engine_frame (isAccess_operation _) ht
    have htcfg : t.cfg = s.cfg := by rw [hframe]; exact hcfg
    exact ⟨t, ht, htcfg ▸ (tick_keeps_inv hinv ht).2, hstep k hk u.line _ _ hu (hcfg ▸ engineEffect_of_exec ht) hPk⟩
  obtain ⟨t, hr, -, hPn⟩ := hrun
  exact ⟨t, hr, hPn⟩

/-! ## Timers and counting down -/

/-- No legal timed phase loses a bit in the 32-bit timer it is entered with (R7, R23). -/
theorem timers_toNat {cfg : Config.Build} (hl : cfg.legal = true) :
    (BitVec.ofNat 32 cfg.tResetUs).toNat = cfg.tResetUs ∧
      (BitVec.ofNat 32 (cfg.tReleaseUs - 1)).toNat = cfg.tReleaseUs - 1 ∧
      (BitVec.ofNat 32 cfg.tSettleUs).toNat = cfg.tSettleUs := by
  obtain ⟨-, hreset, -, hrelease, -, hsettle⟩ := legal_bounds hl
  simp only [BitVec.toNat_ofNat]
  exact ⟨Nat.mod_eq_of_lt hreset, Nat.mod_eq_of_lt (by omega), Nat.mod_eq_of_lt (by omega)⟩

/-- With two ticks or more to go a timer is not at its last tick, and counting down takes one off. -/
theorem countDown_of_two_le {b : Block} (h : 2 ≤ b.timer.toNat) :
    b.timer ≠ 1 ∧ b.countDown.timer.toNat = b.timer.toNat - 1 := by
  refine ⟨fun h1 => by simp [h1] at h, ?_⟩
  rw [Block.countDown_timer]
  bv_omega

/-! ## The reset pulse and the release (R144, R145) -/

/-- Where the block stands `k` Ticks after an accepted START. -/
def ResetPulseAt (cfg : Config.Build) (k : Nat) (b : Block) : Prop :=
  (k < cfg.tResetUs → b.phase = .rstLow ∧ b.timer.toNat = cfg.tResetUs - k) ∧
  (cfg.tResetUs ≤ k → k < cfg.tResetUs + cfg.tReleaseUs - 1 →
    b.phase = .relWait ∧ b.timer.toNat = cfg.tResetUs + cfg.tReleaseUs - 1 - k) ∧
  (k = cfg.tResetUs + cfg.tReleaseUs - 1 → b.phase = .presLow ∧ b.timer = 0)

/-- START begins the pulse. -/
theorem begin_resetPulseAt {cfg : Config.Build} (hl : cfg.legal = true) (b : Block) : ResetPulseAt cfg 0 (b.begin cfg) := by
  obtain ⟨hreset, -⟩ := legal_bounds hl
  exact ⟨fun _ => ⟨rfl, (timers_toNat hl).1⟩, fun _ => by omega, fun _ => by omega⟩

/-- Each Tick carries the pulse on, up to the first presence sample. -/
theorem exists_exec_resetPulseAt {k : Nat} (hl : s.cfg.legal = true) (hk : k < s.cfg.tResetUs + s.cfg.tReleaseUs - 1)
    (h : ResetPulseAt s.cfg k s.blk) :
    ∃ t, exec s.blk.phase.operation s = .next t ∧ ResetPulseAt s.cfg (k + 1) t.blk := by
  obtain ⟨-, -, hrelease, -⟩ := legal_bounds hl
  obtain ⟨hlow, hrel, -⟩ := h
  by_cases hreset : k < s.cfg.tResetUs
  · obtain ⟨hp, ht⟩ := hlow hreset
    rw [hp]
    by_cases hlast : k + 1 = s.cfg.tResetUs
    · have h1 : s.blk.timer = 1 := BitVec.eq_of_toNat_eq (by rw [ht]; simp; omega)
      refine ⟨_, engineStep_timedStep_last h1 _, fun _ => by omega, fun _ _ => ⟨rfl, ?_⟩, fun _ => by omega⟩
      exact (timers_toNat hl).2.1.trans (by omega)
    · obtain ⟨h1, hcount⟩ := countDown_of_two_le (b := s.blk) (by omega)
      refine ⟨_, engineStep_timedStep_count h1 _, fun _ => ⟨hp, hcount.trans (by omega)⟩, fun _ => by omega,
        fun _ => by omega⟩
  · obtain ⟨hp, ht⟩ := hrel (by omega) hk
    rw [hp]
    by_cases hlast : k + 1 = s.cfg.tResetUs + s.cfg.tReleaseUs - 1
    · have h1 : s.blk.timer = 1 := BitVec.eq_of_toNat_eq (by rw [ht]; simp; omega)
      exact ⟨_, engineStep_timedStep_last h1 _, fun _ => by omega, fun _ _ => by omega, fun _ => ⟨rfl, rfl⟩⟩
    · obtain ⟨h1, hcount⟩ := countDown_of_two_le (b := s.blk) (by omega)
      refine ⟨_, engineStep_timedStep_count h1 _, fun _ => by omega, fun _ _ => ⟨hp, hcount.trans (by omega)⟩,
        fun _ => by omega⟩

/-! ## A wait phase whose samples miss (R142) -/

/-- Where the block stands `k` missing Ticks after it was `b₀`, just entered into a wait phase: only the timer and the polls
have moved, and together they count the ticks. -/
def WaitsAt (b₀ : Block) (k : Nat) (b : Block) : Prop :=
  b = b₀.withCount b.timer b.polls ∧
    b.timer.toNat + k = b.polls.toNat * b₀.pollUs.toNat ∧ b.timer.toNat < b₀.pollUs.toNat

variable {b₀ b : Block} {k : Nat}

theorem WaitsAt.phase_eq (h : WaitsAt b₀ k b) : b.phase = b₀.phase := by rw [h.1]; rfl

/-- The samples fall on the multiples of POLL_US. -/
theorem WaitsAt.timer_eq_zero_iff (h : WaitsAt b₀ k b) : b.timer = 0 ↔ b₀.pollUs.toNat ∣ k := by
  obtain ⟨-, hsum, hlt⟩ := h
  constructor
  · intro h0
    rw [h0] at hsum
    exact ⟨b.polls.toNat, by rw [Nat.mul_comm, ← hsum]; simp⟩
  · intro hdvd
    have htimer : b₀.pollUs.toNat ∣ b.timer.toNat := (Nat.dvd_add_left hdvd).1 ⟨b.polls.toNat, by rw [hsum, Nat.mul_comm]⟩
    exact BitVec.eq_of_toNat_eq (Nat.eq_zero_of_dvd_of_lt htimer hlt)

/-- The polls count the samples taken. -/
theorem WaitsAt.polls_eq (h : WaitsAt b₀ k b) :
    b.polls.toNat = (k + b₀.pollUs.toNat - 1) / b₀.pollUs.toNat := by
  obtain ⟨-, hsum, hlt⟩ := h
  have hsplit : k + b₀.pollUs.toNat - 1 = (b₀.pollUs.toNat - 1 - b.timer.toNat) + b.polls.toNat * b₀.pollUs.toNat := by
    omega
  rw [hsplit, Nat.add_mul_div_right _ _ (by omega), Nat.div_eq_of_lt (by omega), Nat.zero_add]

/-- A wait phase just entered has counted nothing. -/
theorem waitsAt_zero (ht : b₀.timer = 0) (hp : b₀.polls = 0) (hpoll : 1 ≤ b₀.pollUs.toNat) : WaitsAt b₀ 0 b₀ :=
  ⟨rfl, by simp [ht, hp], by rw [ht]; exact hpoll⟩

/-- Within the budget each Tick that does not hit the target is counted. -/
theorem exists_exec_waitsAt {q : WaitRow} (hq : q ∈ waitRows) (hphase : b₀.phase = q.phase)
    (hk : k < (b₀.budget.toNat - 1) * b₀.pollUs.toNat) (h : WaitsAt b₀ k s.blk)
    (hline : b₀.pollUs.toNat ∣ k → s.line ≠ q.target) :
    ∃ t, exec s.blk.phase.operation s = .next t ∧ WaitsAt b₀ (k + 1) t.blk := by
  obtain ⟨hsame, hsum, hlt⟩ := h
  have hp : s.blk.phase = q.phase := by rw [hsame]; exact hphase
  have hbudget : s.blk.budget = b₀.budget := by rw [hsame]; rfl
  have hpoll : s.blk.pollUs = b₀.pollUs := by rw [hsame]; rfl
  rw [hp, operation_of_mem_waitRows hq]
  by_cases ht : s.blk.timer = 0
  · have hk' : k = s.blk.polls.toNat * b₀.pollUs.toNat := by simpa [ht] using hsum
    have hpolls : s.blk.polls.toNat < b₀.budget.toNat - 1 := Nat.lt_of_mul_lt_mul_right (hk' ▸ hk)
    have hb : s.blk.polls.toNat + 1 ≠ s.blk.budget.toNat := by rw [hbudget]; omega
    have hlt' : s.blk.budget.toNat < 2 ^ 16 := s.blk.budget.isLt
    have hnext : (s.blk.polls + 1).toNat = s.blk.polls.toNat + 1 := by rw [hbudget] at hlt'; bv_omega
    have htimer : (s.blk.pollUs.setWidth 32 - 1).toNat = b₀.pollUs.toNat - 1 := by
      rw [hpoll, setWidth_sub_one_toNat (by omega)]
    refine ⟨_, exec_wait_miss hq ht (hline ⟨_, by rw [hk', Nat.mul_comm]⟩) hb, Block.withCount_congr hsame _ _, ?_, ?_⟩
    · simp only [State.onBlock_blk, Block.missedSample_timer, Block.missedSample_polls, htimer, hnext, Nat.succ_mul]
      omega
    · exact htimer.trans_lt (by omega)
  · have hpos : s.blk.timer.toNat ≠ 0 := fun h0 => ht (BitVec.eq_of_toNat_eq h0)
    have htimer : (s.blk.timer - 1).toNat = s.blk.timer.toNat - 1 := by bv_omega
    refine ⟨_, exec_wait_countDown hq ht, Block.withCount_congr hsame _ _, ?_, ?_⟩
    · simp only [State.onBlock_blk, Block.countDown_timer, Block.countDown_polls, htimer]
      omega
    · exact htimer.trans_lt (by omega)

/-- The Tick after the last one within the budget fails, if it misses the target (R142, R201). -/
theorem exec_fail_of_waitsAt {q : WaitRow} (hq : q ∈ waitRows) (hphase : b₀.phase = q.phase) (hbudget : 1 ≤ b₀.budget.toNat)
    (h : WaitsAt b₀ ((b₀.budget.toNat - 1) * b₀.pollUs.toNat) s.blk) (hline : s.line ≠ q.target) :
    exec s.blk.phase.operation s = .next (s.onBlock (Block.fail q.code q.fp)) := by
  have ht : s.blk.timer = 0 := h.timer_eq_zero_iff.2 (Nat.dvd_mul_left _ _)
  obtain ⟨hsame, hsum, hlt⟩ := h
  have hpolls : s.blk.polls.toNat = b₀.budget.toNat - 1 := by
    refine (Nat.eq_of_mul_eq_mul_right (Nat.zero_lt_of_lt hlt) ?_).symm
    simpa [ht] using hsum
  have hp : s.blk.phase = q.phase := by rw [hsame]; exact hphase
  have hb : s.blk.budget = b₀.budget := by rw [hsame]; rfl
  rw [hp, operation_of_mem_waitRows hq]
  exact exec_wait_fail hq ht hline (by rw [hb]; omega)

/-- Where the block stands `k` Ticks after it was `b₀`, just entered into the wait phase of `q`, when no sample hits the
target: it waits for W − 1 of them and has failed after W (R142). -/
def TimesOutAt (q : WaitRow) (b₀ : Block) (k : Nat) (b : Block) : Prop :=
  (k < waitBound b₀ → WaitsAt b₀ k b) ∧
  (k = waitBound b₀ → b.phase = .timedOut ∧ b.errcode = q.code ∧ b.failph = q.fp ∧ b.bitidx = b₀.bitidx)

/-- Each Tick that does not hit the target carries the wait on, and the last one fails. -/
theorem exists_exec_timesOutAt {q : WaitRow} (hq : q ∈ waitRows) (hphase : b₀.phase = q.phase)
    (hbudget : 1 ≤ b₀.budget.toNat) (hk : k < waitBound b₀) (h : TimesOutAt q b₀ k s.blk)
    (hline : b₀.pollUs.toNat ∣ k → s.line ≠ q.target) :
    ∃ t, exec s.blk.phase.operation s = .next t ∧ TimesOutAt q b₀ (k + 1) t.blk := by
  have hwait : WaitsAt b₀ k s.blk := h.1 hk
  unfold waitBound at hk
  by_cases hlast : k = (b₀.budget.toNat - 1) * b₀.pollUs.toNat
  · subst hlast
    have hidx : s.blk.bitidx = b₀.bitidx := by rw [hwait.1]; rfl
    exact ⟨_, exec_fail_of_waitsAt hq hphase hbudget hwait (hline (Nat.dvd_mul_left _ _)),
      fun hlt => absurd hlt (Nat.lt_irrefl _), fun _ => ⟨endPhase_of_mem_waitRows hq, rfl, rfl, hidx⟩⟩
  · obtain ⟨t, ht, hnext⟩ := exists_exec_waitsAt hq hphase (by omega) hwait hline
    exact ⟨t, ht, fun _ => hnext, fun hend => by unfold waitBound at hend; omega⟩

/-- A wait phase just entered waits and then fails, as long as its samples miss. -/
theorem exists_runs_timesOutAt {q : WaitRow} {levels : List Level} {n : Nat} (hq : q ∈ waitRows) (hl : s.cfg.legal = true)
    (hphase : s.blk.phase = q.phase) (ht : s.blk.timer = 0) (hp : s.blk.polls = 0) (hpoll : 1 ≤ s.blk.pollUs.toNat)
    (hbudget : 1 ≤ s.blk.budget.toNat) (hn : n ≤ waitBound s.blk)
    (hmiss : ∀ j < n, s.blk.pollUs.toNat ∣ j → levels[j]? = some (!q.target)) :
    ∃ t, runs n (withTicks levels s) t ∧ TimesOutAt q s.blk n t.blk := by
  refine exists_runs_withTicks hl rfl ⟨fun _ => waitsAt_zero ht hp hpoll, fun h => by unfold waitBound at h; omega⟩
    fun k hk u _ hwait hline => ?_
  exact exists_exec_timesOutAt hq hphase hbudget (hk.trans_le hn) hwait fun hdvd => by simp [hline _ (hmiss k hk hdvd)]

/-! ## The settle window (R150) -/

/-- Where the block stands `k` Ticks after it was `b₀`, just entered into BIT_SETTLE, when `bit` is the window's last
level. -/
def SettlesAt (cfg : Config.Build) (bit : Level) (b₀ : Block) (k : Nat) (b : Block) : Prop :=
  (k < cfg.tSettleUs → b = b₀.withCount b.timer b.polls ∧ b.timer.toNat = cfg.tSettleUs - k) ∧
  (k = cfg.tSettleUs → b.phase = .bitWaitLow ∧ b.bitidx = b₀.bitidx + 1 ∧
    (frameByte b.frame (b₀.bitidx.toNat / 8)).toNat =
      (2 * (frameByte b₀.frame (b₀.bitidx.toNat / 8)).toNat + bit.toNat) % 256)

/-- Each Tick of the window counts down, and the last one takes the bit. -/
theorem exists_exec_settlesAt {bit : Level} (hphase : b₀.phase = .bitSettle) (hidx : b₀.bitidx.toNat < 40)
    (hk : k < s.cfg.tSettleUs) (h : SettlesAt s.cfg bit b₀ k s.blk) (hline : k + 1 = s.cfg.tSettleUs → s.line = bit) :
    ∃ t, exec s.blk.phase.operation s = .next t ∧ SettlesAt s.cfg bit b₀ (k + 1) t.blk := by
  obtain ⟨hsame, ht⟩ := h.1 hk
  have hp : s.blk.phase = .bitSettle := by rw [hsame]; exact hphase
  have hi : s.blk.bitidx = b₀.bitidx := by rw [hsame]; rfl
  have hf : s.blk.frame = b₀.frame := by rw [hsame]; rfl
  rw [hp]
  by_cases hlast : k + 1 = s.cfg.tSettleUs
  · have h1 : s.blk.timer = 1 := BitVec.eq_of_toNat_eq (by rw [ht]; simp; omega)
    obtain ⟨f, hshift, e⟩ := exec_bitSettle_last h1 (hi ▸ hidx)
    rw [hi, hf, hline hlast] at hshift
    refine ⟨_, e, fun _ => by omega, fun _ => ⟨rfl, congrArg (· + 1) hi, ?_⟩⟩
    exact (frameByte_shiftInto_toNat hshift _).trans (if_pos rfl)
  · obtain ⟨h1, hcount⟩ := countDown_of_two_le (b := s.blk) (by omega)
    exact ⟨_, if_neg h1, fun _ => ⟨Block.withCount_congr hsame _ _, hcount.trans (by omega)⟩, fun _ => by omega⟩

end Sys2Proof.Laws
end

section
/-! The obligations of the runs of Ticks (R142, R144, R145, R150, R244). -/

namespace Sys2Proof.Proofs

open Sys2Proof.Machine Sys2Proof.Safety Sys2Proof.Laws

/-- Settles O53: while the samples miss, timer and polls count the ticks, and the samples fall on the multiples of
POLL_US. -/
theorem waitPhasesSampleEveryPTicks : Obligations.WaitPhasesSampleEveryPTicks := by
  intro q hq s levels hl hphase ht hp hpoll hbudget hn hmiss
  have hlt : levels.length < waitBound s.blk := Nat.lt_succ_of_le hn
  obtain ⟨t, hr, hend⟩ := exists_runs_timesOutAt hq hl hphase ht hp hpoll hbudget hlt.le hmiss
  have hwait : WaitsAt s.blk levels.length t.blk := hend.1 hlt
  exact ⟨t, hr, hwait.phase_eq.trans hphase, hwait.timer_eq_zero_iff, hwait.polls_eq⟩

/-- Settles O54: after (B−1)·P ticks the next sample is the last of the budget. -/
theorem waitPhasesTimeOutAfterW : Obligations.WaitPhasesTimeOutAfterW := by
  intro q hq s levels hl hphase ht hp hpoll hbudget hn hmiss
  have hruns {n : Nat} (h : n ≤ levels.length) : ∃ t, runs n (withTicks levels s) t ∧ TimesOutAt q s.blk n t.blk :=
    exists_runs_timesOutAt hq hl hphase ht hp hpoll hbudget (h.trans_eq hn) fun j hj => hmiss j (hj.trans_le h)
  constructor
  · intro n hlt
    obtain ⟨t, hr, hwait⟩ := hruns hlt.le
    exact ⟨t, hr, (hwait.1 (hlt.trans_eq hn)).phase_eq.trans hphase⟩
  · obtain ⟨t, hr, hend⟩ := hruns le_rfl
    exact ⟨t, hr, hend.2 hn⟩

/-- Settles O55: each Tick carries the pulse and the release on, up to the first presence sample. -/
theorem resetPulseAndReleaseLastExactly : Obligations.ResetPulseAndReleaseLastExactly := by
  intro s s₀ levels n hl hb hstart hn
  obtain rfl := Host.Outcome.next.inj ((exec_start_free hb).symm.trans hstart)
  refine exists_runs_withTicks (P := ResetPulseAt s.cfg) hl rfl (begin_resetPulseAt hl s.blk) fun k hk u hcfg hpulse _ => ?_
  rw [← hcfg] at hl hn hpulse ⊢
  exact exists_exec_resetPulseAt hl (by omega) hpulse

/-- Settles O56: before the last tick nothing but the timer moves, and the last one takes the level on the line. -/
theorem settleWindowTakesItsLastLevel : Obligations.SettleWindowTakesItsLastLevel := by
  intro s levels bit hl hphase ht hidx hlen
  have h0 : SettlesAt s.cfg bit s.blk 0 s.blk := ⟨fun _ => ⟨rfl, ht⟩, fun _ => by omega⟩
  obtain ⟨t, hr, hend⟩ := exists_runs_withTicks (n := s.cfg.tSettleUs) (levels := levels ++ [bit]) hl rfl h0
    fun k hk u hcfg hsettle hline => by
      rw [← hcfg] at hk hsettle hlen ⊢
      refine exists_exec_settlesAt hphase hidx hk hsettle fun hlast => hline bit ?_
      rw [← hlen] at hlast
      simp [Nat.succ.inj hlast]
  exact ⟨t, hr, hend.2 rfl⟩

end Sys2Proof.Proofs
end

section
/-! SUPPORT. The bounds of R156 on a transaction, each from what one Tick does to it: the upper bound `ticksLeft`, and lower
bounds on the ticks to the end and to a complete frame. -/

namespace Sys2Proof.Laws

open Sys2Proof.Machine Sys2Proof.Safety

variable {cfg : Config.Build} {line : Level} {b c : Block}

/-! ## What a Tick takes off the upper bound -/

theorem waitBound_pos (b : Block) : 1 ≤ waitBound b := Nat.le_add_left _ _

theorem waitLeft_pos (b : Block) : 1 ≤ waitLeft b := Nat.le_add_left _ _

/-- A wait phase is entered with W ticks to go (R142). -/
theorem waitLeft_enter {n : Phase} (hn : n.isWait = true) (b : Block) : waitLeft (b.enter cfg n) = waitBound b := by
  have htimer : enterTimer cfg n = 0 := by cases n <;> cases hn <;> rfl
  simp [waitLeft, waitBound, htimer]

/-- A busy block has a tick left. -/
theorem ticksLeft_pos (hb : b.busy = true) : 1 ≤ ticksLeft cfg b := by
  have hbound := waitBound_pos b
  have hleft := waitLeft_pos b
  unfold Block.busy at hb
  cases hp : b.phase <;> simp only [hp] at hb <;> simp only [ticksLeft, hp]
  case idle | frameComplete | timedOut => cases hb
  all_goals omega

/-- A terminal phase has none. -/
theorem ticksLeft_of_isTerminal (hc : c.phase.isTerminal = true) : ticksLeft cfg c = 0 := by
  unfold ticksLeft
  cases hp : c.phase <;> rw [hp] at hc <;> cases hc

/-- Counting down takes one tick off. -/
theorem ticksLeft_countDown (hp : isTimed b.phase = true ∨ b.phase.isWait = true) (ht : b.timer ≠ 0) :
    ticksLeft cfg b.countDown < ticksLeft cfg b := by
  have hpos : b.timer.toNat ≠ 0 := fun h0 => ht (BitVec.eq_of_toNat_eq h0)
  have htimer : b.countDown.timer.toNat + 1 = b.timer.toNat := by rw [Block.countDown_timer]; bv_omega
  have hbound : waitBound b.countDown = waitBound b := rfl
  have hleft : waitLeft b.countDown + 1 = waitLeft b := by
    simp only [waitLeft, Block.countDown_polls, Block.countDown_budget, Block.countDown_pollUs]
    omega
  cases hphase : b.phase <;> simp only [ticksLeft, Block.countDown_phase, Block.countDown_bitidx, hphase, hbound]
  case idle | presOk | frameComplete | timedOut => simp [hphase, isTimed, Phase.isWait] at hp
  all_goals omega

/-- A missed sample takes one tick off: the poll it counts stands for the POLL_US ticks to the next one. -/
theorem ticksLeft_missedSample (h : BlockInv cfg b) (hp : b.phase.isWait = true) (ht : b.timer = 0)
    (hb : b.polls.toNat + 1 ≠ b.budget.toNat) : ticksLeft cfg b.missedSample < ticksLeft cfg b := by
  have hbudget := h.1.budget_pos
  have hpolls := h.1.polls_bound
  have hpoll := h.1.poll_us_pos
  have hlt : b.budget.toNat < 2 ^ 16 := b.budget.isLt
  have hnext : (b.polls + 1).toNat = b.polls.toNat + 1 := by bv_omega
  have hbound : waitBound b.missedSample = waitBound b := rfl
  have hleft : waitLeft b.missedSample + 1 = waitLeft b := by
    obtain ⟨m, hm⟩ : ∃ m, b.budget.toNat - 1 - b.polls.toNat = m + 1 := ⟨b.budget.toNat - 2 - b.polls.toNat, by omega⟩
    have hm' : b.budget.toNat - 1 - (b.polls.toNat + 1) = m := by omega
    have ht0 : b.timer.toNat = 0 := by rw [ht]; rfl
    simp only [waitLeft, Block.missedSample_polls, Block.missedSample_timer, Block.missedSample_budget,
      Block.missedSample_pollUs, setWidth_sub_one_toNat hpoll, hnext, hm, hm', ht0, Nat.succ_mul]
    omega
  cases hphase : b.phase <;> simp only [ticksLeft, Block.missedSample_phase, Block.missedSample_bitidx, hphase, hbound]
  case presLow | presHigh | bitWaitHigh | bitWaitLow => omega
  all_goals simp [hphase, Phase.isWait] at hp

/-- Each phase is entered with fewer ticks left than the phase before it had. -/
theorem ticksLeft_enter (hl : cfg.legal = true) (h : BlockInv cfg b) {n : Phase} (hn : (b.phase, n) ∈ nextPhases)
    (htimed : isTimed b.phase = true → b.timer = 1) (hslot : b.phase = .bitWaitLow → b.bitidx ≠ 40) :
    ticksLeft cfg (b.enter cfg n) < ticksLeft cfg b := by
  obtain ⟨-, hrelease, hsettle⟩ := timers_toNat hl
  have hbound : waitBound (b.enter cfg n) = waitBound b := rfl
  have hleft := waitLeft_pos b
  have hlast (ht : isTimed b.phase = true) : b.timer.toNat = 1 := by rw [htimed ht]; rfl
  simp only [nextPhases, List.mem_cons, Prod.mk.injEq, List.not_mem_nil, or_false] at hn
  obtain ⟨hp, rfl⟩ | ⟨hp, rfl⟩ | ⟨hp, rfl⟩ | ⟨hp, rfl⟩ | ⟨hp, rfl⟩ | ⟨hp, rfl⟩ | ⟨hp, rfl⟩ := hn <;>
    simp only [ticksLeft, Block.enter_phase, Block.enter_timer, Block.enter_bitidx, enterTimer, hp, hbound]
  · rw [hlast (by rw [hp]; rfl), hrelease]
    omega
  · rw [hlast (by rw [hp]; rfl), waitLeft_enter rfl]
    omega
  · rw [waitLeft_enter rfl]
    omega
  · omega
  · have h0 : b.bitidx = 0 := h.1.early_bitidx (by simp [hp])
    have hidx : b.bitidx.toNat = 0 := by rw [h0]; rfl
    rw [waitLeft_enter rfl, hidx]
    omega
  · rw [hsettle]
    omega
  · have h40 : b.bitidx.toNat ≠ 40 := fun e => hslot hp (BitVec.eq_of_toNat_eq e)
    have hle := h.1.bitidx_bound
    have hslots : 40 - b.bitidx.toNat = (39 - b.bitidx.toNat) + 1 := by omega
    rw [waitLeft_enter rfl, hslots, Nat.succ_mul (39 - b.bitidx.toNat)]
    omega

/-- The sample of a bit takes one tick off. -/
theorem ticksLeft_sample (h : BlockInv cfg b) (hp : b.phase = .bitSettle) (ht : b.timer = 1) (f : Frame) :
    ticksLeft cfg { b with frame := f, bitidx := b.bitidx + 1, phase := .bitWaitLow, polls := 0, timer := 0 } <
      ticksLeft cfg b := by
  have h39 := h.2.before_sample (.inr hp)
  have hidx : 40 - (b.bitidx + 1).toNat = 39 - b.bitidx.toNat := by bv_omega
  have ht1 : b.timer.toNat = 1 := by rw [ht]; rfl
  have hleft : waitLeft { b with frame := f, bitidx := b.bitidx + 1, phase := .bitWaitLow, polls := 0, timer := 0 } =
      waitBound b := waitLeft_enter (cfg := cfg) (n := .bitWaitLow) rfl b
  have hbound : waitBound { b with frame := f, bitidx := b.bitidx + 1, phase := .bitWaitLow, polls := 0, timer := 0 } =
      waitBound b := rfl
  simp only [ticksLeft, hp, hidx, ht1, hleft, hbound]
  omega

/-- Each Tick of a transaction lowers the bound on the ticks it may still take (R156). -/
theorem ticksLeft_lt_of_effect (hl : cfg.legal = true) (h : BlockInv cfg b) (hb : b.busy = true)
    (heffect : EngineEffect b.phase cfg line b c) : ticksLeft cfg c < ticksLeft cfg b := by
  have hended {d : Block} (hd : d.phase.isTerminal = true) : ticksLeft cfg d < ticksLeft cfg b := by
    rw [ticksLeft_of_isTerminal hd]
    exact ticksLeft_pos hb
  cases heffect with
  | rest hp =>
    obtain ⟨hidle, hcomplete, htimeout⟩ := (busy_iff b).1 hb
    simp [hidle, hcomplete, htimeout] at hp
  | count hp =>
    obtain ⟨hp, -⟩ | ⟨hp, ht⟩ := hp
    · have hpos := (h.2.timed_timer hp).1
      exact ticksLeft_countDown (.inl hp) fun h0 => by simp [h0] at hpos
    · exact ticksLeft_countDown (.inr hp) ht
  | enter hn htimed _ hslot => exact ticksLeft_enter hl h hn htimed hslot
  | miss hp ht hb => exact ticksLeft_missedSample h hp ht hb
  | sample hp ht => exact ticksLeft_sample h hp ht _
  | fail => exact hended (endPhase_isTerminal _)
  | complete => exact hended (complete_isTerminal b)

/-- A Tick never goes back to IDLE (R143 to R153). -/
theorem phase_ne_idle_of_effect (hb : b.phase ≠ .idle) (heffect : EngineEffect b.phase cfg line b c) :
    c.phase ≠ .idle := by
  have hended {d : Block} (hd : d.phase.isTerminal = true) : d.phase ≠ .idle := fun e => by rw [e] at hd; cases hd
  cases heffect with
  | rest | count | miss => exact hb
  | enter hn => exact ((busy_iff _).1 (busy_of_nextPhase hn rfl)).1
  | sample => exact nofun
  | fail => exact hended (endPhase_isTerminal _)
  | complete => exact hended (complete_isTerminal b)

/-- While no transaction is in flight a Tick leaves the block (R143, R152, R153). -/
theorem eq_of_effect_of_not_busy (hb : b.busy = false) (heffect : EngineEffect b.phase cfg line b c) : c = b := by
  have hrest : isTimed b.phase = false ∧ b.phase.isWait = false ∧ ∀ n, (b.phase, n) ∉ nextPhases := by
    unfold Block.busy at hb
    cases hp : b.phase <;> rw [hp] at hb <;> cases hb <;> exact ⟨rfl, rfl, by simp [nextPhases]⟩
  obtain ⟨htimed, hwait, hnext⟩ := hrest
  cases heffect with
  | rest => rfl
  | count hp => simp [htimed, hwait] at hp
  | enter hn => exact absurd hn (hnext _)
  | miss hp => simp [hwait] at hp
  | fail hq hp => simp [hp, isWait_of_mem_waitRows hq] at hwait
  | sample hp => simp [hp, isTimed] at htimed
  | complete hp => simp [hp, Phase.isWait] at hwait

/-! ## What a Tick takes off the lower bounds -/

/-- The least number of ticks until a transaction ends: the pulse and the release, and then a sample (R156). -/
def ticksToEnd (cfg : Config.Build) (b : Block) : Nat :=
  match b.phase with
  | .idle | .frameComplete | .timedOut => 0
  | .rstLow => b.timer.toNat + (cfg.tReleaseUs - 1) + 1
  | .relWait => b.timer.toNat + 1
  | .presLow | .presHigh | .presOk | .bitWaitHigh | .bitSettle | .bitWaitLow => 1

/-- The least number of ticks until the frame is complete: every wait hits at once (R156). -/
def ticksToComplete (cfg : Config.Build) (b : Block) : Nat :=
  match b.phase with
  | .idle | .frameComplete | .timedOut => 0
  | .rstLow => b.timer.toNat + (cfg.tReleaseUs - 1) + 3 + 40 * (cfg.tSettleUs + 2)
  | .relWait => b.timer.toNat + 3 + 40 * (cfg.tSettleUs + 2)
  | .presLow => 3 + 40 * (cfg.tSettleUs + 2)
  | .presHigh => 2 + 40 * (cfg.tSettleUs + 2)
  | .presOk => 1 + 40 * (cfg.tSettleUs + 2)
  | .bitWaitHigh => (40 - b.bitidx.toNat) * (cfg.tSettleUs + 2)
  | .bitSettle => b.timer.toNat + 1 + (39 - b.bitidx.toNat) * (cfg.tSettleUs + 2)
  | .bitWaitLow => 1 + (40 - b.bitidx.toNat) * (cfg.tSettleUs + 2)

/-- While the transaction has a tick to go, the block is busy. -/
theorem busy_of_ticksToEnd_pos (h : 0 < ticksToEnd cfg b) : b.busy = true := by
  unfold ticksToEnd at h
  unfold Block.busy
  cases hp : b.phase <;> simp [hp] at h ⊢

/-- Counting down takes at most one tick off both lower bounds. -/
theorem ticksTo_countDown (b : Block) :
    ticksToEnd cfg b ≤ ticksToEnd cfg b.countDown + 1 ∧ ticksToComplete cfg b ≤ ticksToComplete cfg b.countDown + 1 := by
  have htimer : b.timer.toNat ≤ (b.timer - 1).toNat + 1 := by bv_omega
  unfold ticksToEnd ticksToComplete
  simp only [Block.countDown_phase, Block.countDown_timer, Block.countDown_bitidx]
  cases b.phase <;> simp only <;> omega

/-- Entering the next phase takes at most one tick off both lower bounds. -/
theorem ticksTo_enter (hl : cfg.legal = true) (h : BlockInv cfg b) {n : Phase} (hn : (b.phase, n) ∈ nextPhases)
    (htimed : isTimed b.phase = true → b.timer = 1) :
    ticksToEnd cfg b ≤ ticksToEnd cfg (b.enter cfg n) + 1 ∧
      ticksToComplete cfg b ≤ ticksToComplete cfg (b.enter cfg n) + 1 := by
  obtain ⟨-, hrelease, hsettle⟩ := timers_toNat hl
  have hlast (ht : isTimed b.phase = true) : b.timer.toNat = 1 := by rw [htimed ht]; rfl
  simp only [nextPhases, List.mem_cons, Prod.mk.injEq, List.not_mem_nil, or_false] at hn
  obtain ⟨hp, rfl⟩ | ⟨hp, rfl⟩ | ⟨hp, rfl⟩ | ⟨hp, rfl⟩ | ⟨hp, rfl⟩ | ⟨hp, rfl⟩ | ⟨hp, rfl⟩ := hn <;>
    simp only [ticksToEnd, ticksToComplete, Block.enter_phase, Block.enter_timer, Block.enter_bitidx, enterTimer, hp]
  · rw [hlast (by rw [hp]; rfl), hrelease]
    omega
  · rw [hlast (by rw [hp]; rfl)]
    omega
  · omega
  · omega
  · have h0 : b.bitidx = 0 := h.1.early_bitidx (by simp [hp])
    have hidx : b.bitidx.toNat = 0 := by rw [h0]; rfl
    rw [hidx]
    omega
  · have h39 := h.2.before_sample (.inl hp)
    have hslots : 40 - b.bitidx.toNat = (39 - b.bitidx.toNat) + 1 := by omega
    rw [hsettle, hslots, Nat.succ_mul]
    omega
  · omega

/-- A missed sample leaves both lower bounds. -/
theorem ticksTo_missedSample (hp : b.phase.isWait = true) :
    ticksToEnd cfg b.missedSample = ticksToEnd cfg b ∧ ticksToComplete cfg b.missedSample = ticksToComplete cfg b := by
  unfold ticksToEnd ticksToComplete
  simp only [Block.missedSample_phase, Block.missedSample_bitidx]
  obtain hp | hp | hp | hp := b.phase.isWait_iff.1 hp <;> simp [hp]

/-- The sample of a bit takes at most one tick off both lower bounds. -/
theorem ticksTo_sample (hp : b.phase = .bitSettle) (ht : b.timer = 1) (hi : b.bitidx.toNat < 40)
    (hc : c.phase = .bitWaitLow) (hidx : c.bitidx = b.bitidx + 1) :
    ticksToEnd cfg b ≤ ticksToEnd cfg c + 1 ∧ ticksToComplete cfg b ≤ ticksToComplete cfg c + 1 := by
  have ht1 : b.timer.toNat = 1 := by rw [ht]; rfl
  have hleft : 40 - c.bitidx.toNat = 39 - b.bitidx.toNat := by rw [hidx]; bv_omega
  simp only [ticksToEnd, ticksToComplete, hp, hc, ht1, hleft]
  omega

/-- In a wait phase a transaction may end on the next tick. -/
theorem ticksToEnd_of_isWait (hp : b.phase.isWait = true) : ticksToEnd cfg b = 1 := by
  unfold ticksToEnd
  cases hphase : b.phase <;> rw [hphase] at hp <;> cases hp

/-- Each Tick takes at most one off the ticks to the end, and at most one off the ticks to a complete frame unless the
transaction times out. -/
theorem ticksTo_le_of_effect (hl : cfg.legal = true) (h : BlockInv cfg b) (heffect : EngineEffect b.phase cfg line b c) :
    ticksToEnd cfg b ≤ ticksToEnd cfg c + 1 ∧
      (c.phase = .timedOut ∨ ticksToComplete cfg b ≤ ticksToComplete cfg c + 1) := by
  cases heffect with
  | rest => exact ⟨Nat.le_succ _, .inr (Nat.le_succ _)⟩
  | count => exact (ticksTo_countDown b).imp_right .inr
  | enter hn htimed => exact (ticksTo_enter hl h hn htimed).imp_right .inr
  | miss hp =>
    obtain ⟨hend, hcomplete⟩ := ticksTo_missedSample (cfg := cfg) hp
    rw [hend, hcomplete]
    exact ⟨Nat.le_succ _, .inr (Nat.le_succ _)⟩
  | sample hp ht hi => exact (ticksTo_sample hp ht hi rfl rfl).imp_right .inr
  | fail hq hp =>
    have hwait : b.phase.isWait = true := hp ▸ isWait_of_mem_waitRows hq
    exact ⟨(ticksToEnd_of_isWait hwait).trans_le (Nat.le_add_left _ _), .inl (endPhase_of_mem_waitRows hq)⟩
  | complete hp _ _ hi =>
    refine ⟨(ticksToEnd_of_isWait (by rw [hp]; rfl)).trans_le (Nat.le_add_left _ _), .inr ?_⟩
    have hb : ticksToComplete cfg b = 1 := by simp [ticksToComplete, hp, hi]
    rw [hb]
    exact Nat.le_add_left _ _

/-! ## What START sets -/

/-- An accepted START has T_max ticks to go at most (R156). -/
theorem ticksLeft_begin (hl : cfg.legal = true) (b : Block) : ticksLeft cfg (b.begin cfg) = tMax cfg (b.begin cfg) := by
  simp only [ticksLeft, Block.begin_phase, Block.begin_timer, (timers_toNat hl).1, tMax]

/-- An accepted START has T_RESET_US + T_RELEASE_US ticks to go at least, and T_min_ok to a complete frame (R156). -/
theorem ticksTo_begin (hl : cfg.legal = true) (b : Block) :
    ticksToEnd cfg (b.begin cfg) = cfg.tResetUs + cfg.tReleaseUs ∧ ticksToComplete cfg (b.begin cfg) = tMinOk cfg := by
  obtain ⟨-, -, hrelease, -⟩ := legal_bounds hl
  have htimer := (timers_toNat hl).1
  constructor
  · simp only [ticksToEnd, Block.begin_phase, Block.begin_timer, htimer]
    omega
  · simp only [ticksToComplete, Block.begin_phase, Block.begin_timer, htimer, tMinOk]

/-! ## After k Ticks -/

/-- After `k` Ticks a transaction is under way with what is left of `bound`, or it has ended. -/
def EndsWithin (cfg : Config.Build) (bound k : Nat) (b : Block) : Prop :=
  b.phase ≠ .idle ∧ (b.busy = true → ticksLeft cfg b + k ≤ bound)

theorem endsWithin_succ {bound k : Nat} (hl : cfg.legal = true) (hinv : BlockInv cfg b)
    (heffect : EngineEffect b.phase cfg line b c) (h : EndsWithin cfg bound k b) : EndsWithin cfg bound (k + 1) c := by
  obtain ⟨hidle, hleft⟩ := h
  refine ⟨phase_ne_idle_of_effect hidle heffect, fun hc => ?_⟩
  cases hb : b.busy with
  | false =>
    rw [eq_of_effect_of_not_busy hb heffect, hb] at hc
    cases hc
  | true =>
    have hlt := ticksLeft_lt_of_effect hl hinv hb heffect
    have hle := hleft hb
    omega

/-- After `k` Ticks of a transaction at least `least` less `k` are to come, and it has timed out or at least `leastOk` less
`k` are to come until a complete frame. -/
def LastsAtLeast (cfg : Config.Build) (least leastOk k : Nat) (b : Block) : Prop :=
  least ≤ ticksToEnd cfg b + k ∧ (b.phase = .timedOut ∨ leastOk ≤ ticksToComplete cfg b + k)

theorem lastsAtLeast_succ {least leastOk k : Nat} (hl : cfg.legal = true) (hinv : BlockInv cfg b)
    (heffect : EngineEffect b.phase cfg line b c) (h : LastsAtLeast cfg least leastOk k b) :
    LastsAtLeast cfg least leastOk (k + 1) c := by
  obtain ⟨hend, hok⟩ := h
  obtain ⟨hend', hok'⟩ := ticksTo_le_of_effect hl hinv heffect
  refine ⟨by omega, ?_⟩
  obtain htimedOut | hok := hok
  · have hb : b.busy = false := by rw [Block.busy, htimedOut]
    exact .inl (by rw [eq_of_effect_of_not_busy hb heffect, htimedOut])
  · exact hok'.imp_right fun hle => by omega

end Sys2Proof.Laws
end

section
/-! The obligations of the tick bounds (R156). -/

namespace Sys2Proof.Proofs

open Sys2Proof.Machine Sys2Proof.Safety Sys2Proof.Laws

/-- Settles O57, effect by effect. -/
theorem eachTickShortensTheTransaction : Obligations.EachTickShortensTheTransaction := by
  rintro s t level ⟨hl, hinv⟩ hb h
  obtain ⟨-, he⟩ := perform_tick_eq_next_iff.1 h
  obtain ⟨hframe, -⟩ := exec_engine_frame (isAccess_operation _) he
  have hcfg : t.cfg = s.cfg := by rw [hframe]; rfl
  rw [hcfg]
  exact ticksLeft_lt_of_effect hl hinv hb (engineEffect_of_exec (s := sampleLine level s) he)

/-- Settles O58: each of T_max Ticks lowers the bound while the block is busy, so none of it is left. -/
theorem transactionsEndWithinTmax : Obligations.TransactionsEndWithinTmax := by
  intro s s₀ levels hinv hb hstart hlen
  obtain rfl := Host.Outcome.next.inj ((exec_start_free hb).symm.trans hstart)
  have hinv₀ := access_keeps_inv rfl hinv hstart
  have h0 : EndsWithin s.cfg levels.length 0 (s.blk.begin s.cfg) :=
    ⟨nofun, fun _ => ((ticksLeft_begin hinv.1 s.blk).trans hlen.symm).le⟩
  obtain ⟨t, hr, hidle, hleft⟩ := exists_runs_withTicks_of_inv (levels := levels) hinv₀ h0
    fun _ _ _ _ _ hb heffect => endsWithin_succ hinv.1 hb heffect
  refine ⟨levels.length, le_rfl, t, hr, ?_⟩
  have hfree : ¬t.blk.busy = true := fun hbusy => by
    have hpos : 1 ≤ ticksLeft s.cfg t.blk := ticksLeft_pos hbusy
    have hle := hleft hbusy
    omega
  rw [busy_iff] at hfree
  tauto

/-- Settles O59: each Tick takes at most one off the two lower bounds, which START sets. -/
theorem transactionsTakeAtLeastTmin : Obligations.TransactionsTakeAtLeastTmin := by
  intro s s₀ t levels n hinv hb hstart hn hr
  obtain rfl := Host.Outcome.next.inj ((exec_start_free hb).symm.trans hstart)
  have hinv₀ := access_keeps_inv rfl hinv hstart
  obtain ⟨hend, hok⟩ := ticksTo_begin hinv.1 s.blk
  have h0 : LastsAtLeast s.cfg (s.cfg.tResetUs + s.cfg.tReleaseUs) (tMinOk s.cfg) 0 (s.blk.begin s.cfg) :=
    ⟨hend.ge, .inr hok.ge⟩
  obtain ⟨t', hr', hend', hok'⟩ := exists_runs_withTicks_of_inv (levels := levels) hinv₀ h0
    fun _ _ _ _ _ hb heffect => lastsAtLeast_succ hinv.1 hb heffect
  obtain rfl : t' = t := Host.Outcome.next.inj (hr'.symm.trans hr)
  refine ⟨fun hlt => busy_of_ticksToEnd_pos (cfg := s.cfg) ?_, fun hlt hcomplete => ?_⟩
  · have hlt' : n < s.cfg.tResetUs + s.cfg.tReleaseUs := hlt
    omega
  · have hlt' : n < tMinOk s.cfg := hlt
    have hzero : ticksToComplete s.cfg t'.blk = 0 := by simp [ticksToComplete, hcomplete]
    obtain htimedOut | hle := hok'
    · cases hcomplete.symm.trans htimedOut
    · omega

end Sys2Proof.Proofs
end
